-- ==== Sys2Proof/Word.lean ====
section
/-! DEFINITION. The byte, the unit in which the links carry frames (R177). -/

namespace Sys2Proof

/-- One byte of a frame. -/
abbrev Byte := BitVec 8

end Sys2Proof
end

