-- ==== Sys2Proof/Syntax.lean ====
section
/-! DEFINITION. The commands of the FS-620: one constructor per row of spec/opcode_table.json. -/

namespace Sys2Proof

/-- The four press heads (section 0.6). -/
inductive Head where
  | h0 | h1 | h2 | h3
  deriving DecidableEq, Repr

/-- The five serial links (section 9): one per head, and the cell link. -/
inductive Link where
  | head (h : Head)
  | cell
  deriving DecidableEq, Repr

/-- One item per head. -/
structure PerHead (α : Type) where
  h0 : α
  h1 : α
  h2 : α
  h3 : α
  deriving DecidableEq, Repr

/-- One item per corner of a head, C0 to C3 (section 1). -/
structure PerCorner (α : Type) where
  c0 : α
  c1 : α
  c2 : α
  c3 : α
  deriving DecidableEq, Repr

/-- The three sub-conversions of one corner on one sample: signed 20-bit converter values (R3). -/
structure Conversions where
  a : BitVec 20
  b : BitVec 20
  c : BitVec 20
  deriving DecidableEq, Repr

/-- The quadrature channel pair (A, B) of an encoder (R10). -/
structure Phase where
  a : Bool
  b : Bool
  deriving DecidableEq, Repr

/-- A character as the receive line carries it: its eight data bits, and whether its stop bit was
sampled at mark (R163). -/
structure RxChar where
  byte : Byte
  stopAtMark : Bool
  deriving DecidableEq, Repr

/-- Which of a type's two stored records a memory fault strikes (R33). -/
inductive RecordSlot where
  | active
  | pending
  deriving DecidableEq, Repr

/-- The commands. A request carries the tag and the payload bytes of its frame (R172, R177); its
kind byte and its link follow from its name (section 9.6). -/
inductive Instr where
  /-- A head completes a sample with these sub-conversions (R1, R3). -/
  | sampleComplete (h : Head) (conv : PerCorner Conversions)
  /-- The channel pair of a head's encoder is observed at `seen` (R10). -/
  | encoderTransition (h : Head) (seen : Phase)
  /-- Timebase event number `event` meets the hold timer of a head (R76, R77). -/
  | holdTimerExpiry (h : Head) (event : Nat)
  | estopAsserted
  | estopReleased
  | hardwareReset
  /-- RESET is released with these phases at the encoder inputs (R20). -/
  | resetReleased (phases : PerHead Phase)
  | linkBreak (l : Link)
  | frameTransmitStart (l : Link)
  /-- A frame of these characters ends on a link (R163, R164). -/
  | invalidFrame (l : Link) (chars : List RxChar)
  | downLinkDiscard (l : Link) (kind tag : Byte) (payload : List Byte)
  | overrunDiscard (l : Link) (kind tag : Byte) (payload : List Byte)
  | unknownRequest (l : Link) (kind tag : Byte) (payload : List Byte)
  | hello (l : Link) (tag : Byte) (payload : List Byte)
  | status (h : Head) (tag : Byte) (payload : List Byte)
  | cellStatus (tag : Byte) (payload : List Byte)
  | home (h : Head) (tag : Byte) (payload : List Byte)
  | claim (h : Head) (tag : Byte) (payload : List Byte)
  | release (h : Head) (tag : Byte) (payload : List Byte)
  | start (h : Head) (tag : Byte) (payload : List Byte)
  | stop (h : Head) (tag : Byte) (payload : List Byte)
  | retracted (h : Head) (tag : Byte) (payload : List Byte)
  | haltAck (h : Head) (tag : Byte) (payload : List Byte)
  | configureHead (tag : Byte) (payload : List Byte)
  | boardBegin (tag : Byte) (payload : List Byte)
  | boardEnd (tag : Byte) (payload : List Byte)
  | boardAbort (tag : Byte) (payload : List Byte)
  | siteDefine (tag : Byte) (payload : List Byte)
  | load (tag : Byte) (payload : List Byte)
  | unload (tag : Byte) (payload : List Byte)
  | readSite (tag : Byte) (payload : List Byte)
  | loadType (tag : Byte) (payload : List Byte)
  | purgeType (tag : Byte) (payload : List Byte)
  | readType (tag : Byte) (payload : List Byte)
  | takeRecord (tag : Byte) (payload : List Byte)
  | warmReset (tag : Byte) (payload : List Byte)
  | frameTransmissionEnd (l : Link)
  /-- Bit `bit` of word `word` of a stored record of type `t` flips (R33). -/
  | memoryWordFault (t : Fin 48) (slot : RecordSlot) (word bit : Nat)
  deriving DecidableEq, Repr

end Sys2Proof
end

