-- ==== Sys2Proof/Decode.lean ====
section
/-! DEFINITION. The commands a word spells by the table's bits: the table gives no row any bits, so no
word spells a command. -/

namespace Sys2Proof

/-- No row of spec/opcode_table.json has fields or fixed bits. -/
def decodeTableWord (_nbits _w : Nat) : Option Instr := none

end Sys2Proof
end

