-- ==== Sys2Proof/Config.lean ====
section
/-! DEFINITION. The figures the manual fixes for the part. No value of the manual is left free. -/

namespace Sys2Proof.Config

/-- The lower converter rail (R3). -/
def railLow : Int := -524288
/-- The upper converter rail (R3). -/
def railHigh : Int := 524287
/-- The tare limit, 0.1 N (R15). -/
def tareLimit : Nat := 50000
/-- The lower end of the position counter, µm (R10). -/
def positionMin : Int := -8388608
/-- The upper end of the position counter, µm (R10). -/
def positionMax : Int := 8388607
/-- The default bypass limit (R42). -/
def defaultBypassLimit : Nat := 4
/-- The default claim hold time, in steps of 100 ms (R42). -/
def defaultHoldTime : Nat := 50
/-- The slots of the result queue (R148). -/
def resultSlots : Nat := 64
/-- The frames an output queue holds (R170). -/
def outputSlots : Nat := 16
/-- The longest payload of a frame (R177). -/
def maxPayload : Nat := 250
/-- The most characters a receive assembly keeps (R163). -/
def assemblyMax : Nat := 254
/-- The time of one character, µs (R162). -/
def charTime : Nat := 10
/-- The least idle time between two frames sent, µs (R162). -/
def idleGap : Nat := 40
/-- The period of the timebase, µs (R76). -/
def timebase : Nat := 10000
/-- One step of the claim hold time, µs (R76). -/
def holdStep : Nat := 100000

end Sys2Proof.Config
end

