-- ==== Sys2Proof/Machine/State.lean ====
section
/-! DEFINITION. The state of the FS-620 as plain data, and its value after reset. -/

namespace Sys2Proof.Machine

/-! ### Enumerations, each in the order R176 numbers its values -/

/-- The sample periods, codes 0 to 3 (R1). -/
inductive Period where
  | us250 | us500 | us1000 | us2000
  deriving DecidableEq, Repr

/-- The stability times, codes 0 to 3 (section 1.7). -/
inductive StabilityTime where
  | ms50 | ms100 | ms200 | ms400
  deriving DecidableEq, Repr

/-- The tare states (section 1.6). -/
inductive TareState where
  | settling | stable | outOfRange
  deriving DecidableEq, Repr

/-- The type states (R22). -/
inductive TypeState where
  | absent | ready | draining | broken
  deriving DecidableEq, Repr

/-- The board states (R42). -/
inductive BoardState where
  | noBoard | isOpen | aborting
  deriving DecidableEq, Repr

/-- The head states (section 5.1). -/
inductive HeadState where
  | idle | waiting | armed | approach | engage | seating | retract | halted
  deriving DecidableEq, Repr

/-- The abort causes, codes 1 to 15 in this order (R132, R134). -/
inductive Cause where
  | overforce | overrange | encoder | tilt | overtravel | depthLimit | noContact | stalled
  | sensorNoise | strokeTime | estop | linkDown | boardAbort | headStop | supervisorReset
  deriving DecidableEq, Repr

/-- The statuses of a group result (R150). -/
inductive GroupStatus where
  | pass | low | high | jointPass | jointLow | jointHigh | notReached
  deriving DecidableEq, Repr

/-- The reasons of drops and revocations (section 4.8). -/
inductive ClaimReason where
  | siteChanged | typeBroken | boardClosed | boardAbort | estop | linkDown | supervisorReset
  deriving DecidableEq, Repr

/-- The outcomes a press record carries (R150). -/
inductive StrokeOutcome where
  | pass | reject | abort
  deriving DecidableEq, Repr

/-- The failure set: which of the four failures it holds (R128). -/
structure FailureSet where
  bandHigh : Bool
  bandLow : Bool
  groupLow : Bool
  groupHigh : Bool
  deriving DecidableEq, Repr

/-! ### The Sensing Front End (section 1) -/

/-- What a front end keeps per corner (section 1). -/
structure Corner where
  /-- The gain G_c (R7). -/
  gain : Nat
  /-- The held last value, 0.1 N (R6). -/
  held : Int
  /-- The consecutive-noise run (R5). -/
  noiseRun : Nat
  deriving DecidableEq, Repr

/-- A corner entry of a sample record (R13). -/
structure CornerEntry where
  force : Int
  saturated : Bool
  noisy : Bool
  noisyRun : Bool
  deriving DecidableEq, Repr

/-- A sample record (R13). -/
structure SampleRecord where
  head : Head
  corners : PerCorner CornerEntry
  gross : Int
  net : Int
  tilt : Option Nat
  position : Int
  periodFault : Bool
  deriving DecidableEq, Repr

/-- The tare tracker (section 1.6): T, Q, the stability run and the tare state. -/
structure Tare where
  value : Int
  candidate : Int
  run : Nat
  state : TareState
  deriving DecidableEq, Repr

/-- A Sensing Front End (the table of section 1). -/
structure FrontEnd where
  corners : PerCorner Corner
  noiseLimit : Nat
  hysteresis : Nat
  stability : StabilityTime
  tare : Tare
  position : Int
  homed : Bool
  encoderFault : Bool
  periodFault : Bool
  heldCount : Nat
  latest : SampleRecord
  phase : Phase
  deriving DecidableEq, Repr

/-! ### The Envelope Library (section 2) -/

/-- An engagement group of a type record (section 2.1). -/
structure Group where
  entry : Nat
  pins : Nat
  fmin : Nat
  fmax : Nat
  settle : Nat
  deriving DecidableEq, Repr

/-- The fields of a type record (section 2.1). -/
structure TypeRecord where
  partCode : BitVec 32
  pinTotal : Nat
  contactThreshold : Nat
  confirmCount : Nat
  approachLimit : Nat
  groups : List Group
  seatStart : Nat
  seatSearch : Nat
  slopeThreshold : Nat
  seatWindow : Nat
  forceMax : Nat
  overtravelMax : Nat
  dwell : Nat
  tiltLimit : Nat
  tiltFloor : Nat
  stallTime : Nat
  strokeLimit : Nat
  deriving DecidableEq, Repr

/-- A record as library memory keeps it (R33): the fields that were stored, and the bits that have
flipped since, as (word, bit) pairs in strictly rising order. -/
structure StoredRecord where
  fields : TypeRecord
  flips : List (Nat × Nat)
  deriving DecidableEq, Repr

/-- One slot of the library (R22). `waiting` is the type's entry of the pending-update set. -/
structure TypeSlot where
  state : TypeState
  users : Nat
  faults : Nat
  active : Option StoredRecord
  waiting : Option StoredRecord
  deriving DecidableEq, Repr

/-- A working copy: the type number and every field of the record as read (R31). -/
structure WorkingCopy where
  typeNo : Fin 48
  fields : TypeRecord
  deriving DecidableEq, Repr

/-! ### The Board and Site Table (section 3) -/

/-- The board session (R42). -/
structure Board where
  state : BoardState
  serial : BitVec 32
  bypassLimit : Nat
  holdTime : Nat
  deriving DecidableEq, Repr

/-- The state of a site at its grant: LOADED or REJECTED (R56). -/
inductive GrantFrom where
  | loaded | rejected
  deriving DecidableEq, Repr

/-- The states of a defined site (R49), each with the fields R48 gives it alone: the holder head and
the state at grant in CLAIMED and PRESSING, the seated depth in SEATED. -/
inductive SiteState where
  | empty
  | loaded
  | claimed (holder : Head) (atGrant : GrantFrom)
  | pressing (holder : Head) (atGrant : GrantFrom)
  | seated (depth : Int)
  | rejected
  | lockedOut
  deriving DecidableEq, Repr

/-- A site's last outcome (R48). -/
inductive LastOutcome where
  | pass
  | reject (failures : FailureSet)
  | abort (cause : Cause)
  deriving DecidableEq, Repr

/-- A defined site (R48). An UNDEFINED site has no entry. The keep-out set is kept in rising order. -/
structure SiteEntry where
  typeNo : Fin 48
  x : Nat
  y : Nat
  keepOut : List (Fin 32)
  state : SiteState
  attempts : Nat
  last : Option LastOutcome
  deriving DecidableEq, Repr

/-! ### The Zone Arbiter (section 4) -/

/-- A claim: its site and restrike flag (section 5.1). -/
structure Claim where
  site : Fin 96
  restrike : Bool
  deriving DecidableEq, Repr

/-- An entry of the claim queue (R65). -/
structure QueueEntry where
  head : Head
  claim : Claim
  bypass : Nat
  deriving DecidableEq, Repr

/-! ### The Profile Evaluator (section 6) -/

/-- A group result (R121). -/
structure GroupResult where
  index : Nat
  status : GroupStatus
  step : Option Int
  mean : Option Int
  deficit : Option Nat
  deriving DecidableEq, Repr

/-- The captures of one group (R109). -/
structure GroupCapture where
  baseline : Option Int
  step : Option Int
  deriving DecidableEq, Repr

/-- The evaluation state (R109). `chain` names the first and last group of an open joint chain,
counted from 1. The slope window holds (d, F) pairs, oldest first. -/
structure Evaluation where
  depth : Option Int
  maxDepth : Option Int
  pendingBaseline : Option Int
  captures : List GroupCapture
  chain : Option (Nat × Nat)
  results : List GroupResult
  failures : FailureSet
  firstBandDepth : Option Int
  window : List (Int × Int)
  overtravel : Option Int
  deriving DecidableEq, Repr

/-! ### Press records (section 8) -/

/-- A press record (R150). -/
structure PressRecord where
  serial : BitVec 32
  site : Fin 96
  typeNo : Fin 48
  partCode : BitVec 32
  head : Head
  attempt : Nat
  restrike : Bool
  outcome : StrokeOutcome
  failures : Option FailureSet
  firstBandDepth : Option Int
  causes : Option (Cause × List Cause)
  contactPosition : Option Int
  seatDepth : Option Int
  overtravel : Option Int
  peakForce : Int
  peakTilt : Option Nat
  samples : Nat
  samplesSaturated : Bool
  heldCount : Nat
  groups : Option (List GroupResult)
  deriving DecidableEq, Repr

/-! ### The Stroke Monitor (sections 5 and 7) -/

/-- The abort items (section 7). The further-cause set is kept in rising order of its codes. `due`
is the press record as the abort fixed it (R141): present exactly when the record-due flag is set. -/
structure AbortItems where
  primary : Cause
  further : List Cause
  contact : Bool
  due : Option PressRecord
  deriving DecidableEq, Repr

/-- The stroke variables (sections 5.1, 7 and 8.3). -/
structure Stroke where
  serial : BitVec 32
  attempt : Nat
  startPosition : Int
  strokeLimit : Nat
  stallLimit : Nat
  dwellLimit : Nat
  count : Nat
  contactRun : Nat
  candidate : Option Int
  contactPosition : Option Int
  stallRun : Nat
  seatDepth : Option Int
  dwell : Nat
  peakForce : Int
  peakTilt : Option Nat
  samples : Nat
  samplesSaturated : Bool
  eval : Evaluation
  abort : Option AbortItems
  deriving DecidableEq, Repr

/-- What a Stroke Monitor and the Arbiter keep for one head (section 5.1). `claim` is present from
the grant; the claim of a WAITING head stands in the claim queue. `grantTime` is present while the
hold timer runs (R76). `slot` is the head's reservation (R75). `permit` is the monitor's drive of
PERMIT, before the holding by ESTOP (R88). -/
structure Monitor where
  state : HeadState
  claim : Option Claim
  grantTime : Option Nat
  slot : Bool
  copy : Option WorkingCopy
  permit : Bool
  stroke : Option Stroke
  deriving DecidableEq, Repr

/-! ### The Link Controllers (section 9) -/

/-- A frame in an output queue: kind, tag and payload, the status byte first (R172, R173). -/
structure OutFrame where
  kind : Byte
  tag : Byte
  payload : List Byte
  deriving DecidableEq, Repr

/-- The frame in transmission: all its bytes, and the clock when its first byte began (R170). -/
structure TxFrame where
  bytes : List Byte
  since : Nat
  deriving DecidableEq, Repr

/-- A Link Controller (the table of section 9). -/
structure LinkState where
  up : Bool
  assembly : List Byte
  assemblyBad : Bool
  out : List OutFrame
  tx : Option TxFrame
  overrun : Bool
  idleSince : Nat
  deriving DecidableEq, Repr

/-! ### The whole part -/

/-- The state of the FS-620. -/
structure State where
  /-- The commands that wait, first in, first out (log 1). -/
  pending : List Instr
  /-- The time, µs, from a timebase event taken as 0 (R76, log 2). -/
  clock : Nat
  /-- RESET is asserted (R20). -/
  resetHeld : Bool
  /-- ESTOP is asserted (R142). -/
  estop : Bool
  period : Period
  fronts : PerHead FrontEnd
  library : Vector TypeSlot 48
  board : Board
  sites : Vector (Option SiteEntry) 96
  zones : Vector (Option Head) 32
  queue : List QueueEntry
  monitors : PerHead Monitor
  records : List PressRecord
  headLinks : PerHead LinkState
  cellLink : LinkState
  deriving DecidableEq, Repr

/-- The faults that stop the part: the manual gives none, and no command raises one. -/
inductive Fault where
  deriving DecidableEq, Repr

/-- The reasons for giving a command no meaning. -/
inductive Refusal where
  /-- The command of this row has no meaning in the model yet. Raised by `exec` alone; safe. -/
  | notModelled (mnemonic : String)
  deriving DecidableEq, Repr

/-! ### Reset values -/

/-- A corner after a hardware reset (R20). -/
def Corner.reset : Corner := { gain := 2048, held := 0, noiseRun := 0 }

/-- A clean corner entry (R19). R19 gives the latest sample record g 0 and clean corners and no force for
each: every corner has 0 (DESIGN CHOICE, log 23). -/
def CornerEntry.clean : CornerEntry :=
  { force := 0, saturated := false, noisy := false, noisyRun := false }

/-- The latest sample record before the first sample (R19). Its corner forces and its period fault
indicator are log 23's. -/
def SampleRecord.reset (h : Head) : SampleRecord :=
  { head := h
    corners := ⟨.clean, .clean, .clean, .clean⟩
    gross := 0, net := 0, tilt := none, position := 0, periodFault := false }

/-- The tare tracker after a hardware reset (R20). -/
def Tare.reset : Tare := { value := 0, candidate := 0, run := 0, state := .settling }

/-- A Sensing Front End after a hardware reset (R20). The phase is log 8's. -/
def FrontEnd.reset (h : Head) : FrontEnd :=
  { corners := ⟨.reset, .reset, .reset, .reset⟩
    noiseLimit := 1024
    hysteresis := 50
    stability := .ms100
    tare := .reset
    position := 0
    homed := false
    encoderFault := false
    periodFault := false
    heldCount := 0
    latest := .reset h
    phase := ⟨false, false⟩ }

/-- An ABSENT type (R40). -/
def TypeSlot.reset : TypeSlot :=
  { state := .absent, users := 0, faults := 0, active := none, waiting := none }

/-- The board session in NO_BOARD, with the defaults (R42). -/
def Board.closed : Board :=
  { state := .noBoard
    serial := 0
    bypassLimit := Config.defaultBypassLimit
    holdTime := Config.defaultHoldTime }

/-- A head in IDLE, with no claim, working copy, reservation or stroke variables (R87, R107). -/
def Monitor.idle : Monitor :=
  { state := .idle, claim := none, grantTime := none, slot := false, copy := none
    permit := false, stroke := none }

/-- A link after a hardware reset (R166). -/
def LinkState.reset : LinkState :=
  { up := false, assembly := [], assemblyBad := false, out := [], tx := none
    overrun := false, idleSince := 0 }

/-- The part right after a hardware reset, with RESET released (R20, R40, R62, R85, R107, R147,
R160, R166). The queue, the clock, the inputs and the phases are logs 1, 2, 6, 7 and 8. -/
def State.reset : State :=
  { pending := []
    clock := 0
    resetHeld := false
    estop := false
    period := .us1000
    fronts := ⟨.reset .h0, .reset .h1, .reset .h2, .reset .h3⟩
    library := Vector.replicate 48 .reset
    board := .closed
    sites := Vector.replicate 96 none
    zones := Vector.replicate 32 none
    queue := []
    monitors := ⟨.idle, .idle, .idle, .idle⟩
    records := []
    headLinks := ⟨.reset, .reset, .reset, .reset⟩
    cellLink := .reset }

end Sys2Proof.Machine
end

