-- ==== Sys2Proof/Machine/Bytes.lean ====
section
/-! DEFINITION. Bytes on the links: the numbers of R176 as sent and as read, and the check byte of
R165. -/

namespace Sys2Proof.Machine

/-! ### Sending (R176): most significant byte first, signed numbers in two's complement -/

/-- A number of one byte. -/
def u8 (n : Nat) : List Byte := [BitVec.ofNat 8 n]

/-- A number of two bytes. -/
def u16 (n : Nat) : List Byte := [BitVec.ofNat 8 (n / 256), BitVec.ofNat 8 n]

/-- An unsigned number of four bytes. -/
def u32 (n : Nat) : List Byte :=
  [BitVec.ofNat 8 (n / 16777216), BitVec.ofNat 8 (n / 65536), BitVec.ofNat 8 (n / 256),
    BitVec.ofNat 8 n]

/-- A signed number of four bytes: a force, a position, a depth or an overtravel. -/
def s32 (i : Int) : List Byte := u32 (BitVec.ofInt 32 i).toNat

/-- A flag: 1 when set, 0 otherwise. -/
def flagByte (b : Bool) : List Byte := u8 b.toNat

/-- An optional field: a presence byte, then the field at its full width, 0 when absent. -/
def optField (width : Nat) : Option (List Byte) → List Byte
  | some bytes => 1 :: bytes
  | none => 0 :: List.replicate width 0

/-- A list: a count byte, then the entries. -/
def listField (entries : List (List Byte)) : List Byte :=
  u8 entries.length ++ entries.flatten

/-- A tilt takes two bytes, and one above 65,535 is sent as 65,535. -/
def tiltBytes (t : Nat) : List Byte := u16 (min t 65535)

/-- The flags of a byte, the first of them bit 0. -/
def packBits : List Bool → Nat
  | [] => 0
  | b :: bs => b.toNat + 2 * packBits bs

/-! ### Reading a payload -/

/-- The byte at place `i` of a payload, as a number. -/
def at8 (p : List Byte) (i : Nat) : Nat := ((p[i]?).getD 0).toNat

/-- The two bytes from place `i`. -/
def at16 (p : List Byte) (i : Nat) : Nat := at8 p i * 256 + at8 p (i + 1)

/-- The four bytes from place `i`. -/
def at32 (p : List Byte) (i : Nat) : Nat := at16 p i * 65536 + at16 p (i + 2)

/-! ### The check byte (R165) -/

/-- One shift of the running value: where the leaving bit is 1, the shifted value is combined by
exclusive OR with 7. -/
def crcShift (v : Byte) : Byte := if v.msb then (v <<< 1) ^^^ 7 else v <<< 1

/-- Shifts of the running value. -/
def crcShifts : Nat → Byte → Byte
  | 0, v => v
  | k + 1, v => crcShifts k (crcShift v)

/-- The running value after one more byte: exclusive OR, then eight shifts. -/
def crcByte (running b : Byte) : Byte := crcShifts 8 (running ^^^ b)

/-- The check byte over the bytes of a frame before it, from a starting value of 0. -/
def checkByte (bytes : List Byte) : Byte := bytes.foldl crcByte 0

/-- All bytes of a frame, its check byte last (R177). -/
def frameBytes (kind tag : Byte) (payload : List Byte) : List Byte :=
  let body := kind :: tag :: u8 payload.length ++ payload
  body ++ [checkByte body]

end Sys2Proof.Machine
end

