-- ==== Sys2Proof/Machine/Ops.lean ====
section
/-! DEFINITION. The named operations on the parts of State that every block uses: items per head and
per link, the output queues, and the events. -/

namespace Sys2Proof

/-! ### Items per head and per corner -/

/-- The item of one head. -/
def PerHead.get {α : Type} (p : PerHead α) : Head → α
  | .h0 => p.h0
  | .h1 => p.h1
  | .h2 => p.h2
  | .h3 => p.h3

/-- The items with one head's replaced. -/
def PerHead.set {α : Type} (p : PerHead α) (h : Head) (a : α) : PerHead α :=
  match h with
  | .h0 => { p with h0 := a }
  | .h1 => { p with h1 := a }
  | .h2 => { p with h2 := a }
  | .h3 => { p with h3 := a }

/-- A function on the item of every head. -/
def PerHead.map {α β : Type} (f : α → β) (p : PerHead α) : PerHead β :=
  ⟨f p.h0, f p.h1, f p.h2, f p.h3⟩

/-- The items in the order H0 to H3. -/
def PerHead.toList {α : Type} (p : PerHead α) : List α := [p.h0, p.h1, p.h2, p.h3]

/-- A function on the item of every corner. -/
def PerCorner.map {α β : Type} (f : α → β) (p : PerCorner α) : PerCorner β :=
  ⟨f p.c0, f p.c1, f p.c2, f p.c3⟩

/-- A function on the items of every corner of two kinds. -/
def PerCorner.zipWith {α β γ : Type} (f : α → β → γ) (p : PerCorner α) (q : PerCorner β) :
    PerCorner γ :=
  ⟨f p.c0 q.c0, f p.c1 q.c1, f p.c2 q.c2, f p.c3 q.c3⟩

/-- The items in the order C0 to C3. -/
def PerCorner.toList {α : Type} (p : PerCorner α) : List α := [p.c0, p.c1, p.c2, p.c3]

end Sys2Proof

namespace Sys2Proof.Machine

/-! ### Heads -/

/-- The heads in the order H0 to H3. -/
def allHeads : List Head := [.h0, .h1, .h2, .h3]

/-- A head's number, 0 to 3. -/
def headNo : Head → Nat
  | .h0 => 0
  | .h1 => 1
  | .h2 => 2
  | .h3 => 3

/-- The head of a number, if it is 0 to 3. -/
def headOf : Nat → Option Head
  | 0 => some .h0
  | 1 => some .h1
  | 2 => some .h2
  | 3 => some .h3
  | _ => none

/-! ### Parts of State -/

/-- The Sensing Front End of a head. -/
def State.front (s : State) (h : Head) : FrontEnd := s.fronts.get h

/-- The state with a head's Sensing Front End replaced. -/
def State.setFront (s : State) (h : Head) (f : FrontEnd) : State :=
  { s with fronts := s.fronts.set h f }

/-- The Stroke Monitor of a head. -/
def State.monitor (s : State) (h : Head) : Monitor := s.monitors.get h

/-- The state with a head's Stroke Monitor replaced. -/
def State.setMonitor (s : State) (h : Head) (m : Monitor) : State :=
  { s with monitors := s.monitors.set h m }

/-- The Link Controller of a link. -/
def State.link (s : State) : Link → LinkState
  | .head h => s.headLinks.get h
  | .cell => s.cellLink

/-- The state with a Link Controller replaced. -/
def State.setLink (s : State) (l : Link) (k : LinkState) : State :=
  match l with
  | .head h => { s with headLinks := s.headLinks.set h k }
  | .cell => { s with cellLink := k }

/-- The slot of a type (R22). -/
def State.typeSlot (s : State) (t : Fin 48) : TypeSlot := s.library[t]

/-- The state with a type's slot replaced. -/
def State.setType (s : State) (t : Fin 48) (slot : TypeSlot) : State :=
  { s with library := s.library.set t slot }

/-- The entry of a site, absent when it is UNDEFINED (R48). -/
def State.site (s : State) (n : Fin 96) : Option SiteEntry := s.sites[n]

/-- The state with a site's entry replaced. -/
def State.setSite (s : State) (n : Fin 96) (e : Option SiteEntry) : State :=
  { s with sites := s.sites.set n e }

/-- The holder of a zone (R64). -/
def State.holder (s : State) (z : Fin 32) : Option Head := s.zones[z]

/-! ### Output queues and events (R166, R170, R171, R173) -/

/-- A frame offered to a link's output queue: discarded on a DOWN link (R166), lost with the overrun
flag set when 16 frames wait (R170), and otherwise the youngest of the queue. -/
def LinkState.offer (k : LinkState) (f : OutFrame) : LinkState :=
  if k.up then
    if k.out.length < Config.outputSlots then { k with out := k.out ++ [f] }
    else { k with overrun := true }
  else k

/-- A frame offered to the output queue of a link. -/
def State.offer (s : State) (l : Link) (f : OutFrame) : State :=
  s.setLink l ((s.link l).offer f)

/-- An event frame: tag 0, and a status byte holding OK (R173). -/
def eventFrame (kind : Byte) (fields : List Byte) : OutFrame :=
  { kind := kind, tag := 0, payload := 0 :: fields }

/-- An event queued on a head's link (R173). -/
def State.event (s : State) (h : Head) (kind : Byte) (fields : List Byte) : State :=
  s.offer (.head h) (eventFrame kind fields)

end Sys2Proof.Machine
end

