-- ==== Sys2Proof/Machine/Operands.lean ====
section
/-! DEFINITION. The operand forms: the fields of the requests' payloads (sections 1 to 4 and R178),
and the numbers of the manual's codes. -/

namespace Sys2Proof.Machine

/-- A site number, if it is 0 to 95 (R48). -/
def siteOf (n : Nat) : Option (Fin 96) := if h : n < 96 then some ⟨n, h⟩ else none

/-- A type number, if it is 0 to 47 (R22). -/
def typeOf (n : Nat) : Option (Fin 48) := if h : n < 48 then some ⟨n, h⟩ else none

/-- A zone number, if it is 0 to 31 (R64). -/
def zoneOf (n : Nat) : Option (Fin 32) := if h : n < 32 then some ⟨n, h⟩ else none

/-- A sample period code (R1). -/
def periodOf : Nat → Option Period
  | 0 => some .us250
  | 1 => some .us500
  | 2 => some .us1000
  | 3 => some .us2000
  | _ => none

/-- The code of a sample period (R1). -/
def Period.code : Period → Nat
  | .us250 => 0
  | .us500 => 1
  | .us1000 => 2
  | .us2000 => 3

/-- A sample period in µs (R1). -/
def Period.micros : Period → Nat
  | .us250 => 250
  | .us500 => 500
  | .us1000 => 1000
  | .us2000 => 2000

/-- A stability time code (section 1.7). -/
def stabilityOf : Nat → Option StabilityTime
  | 0 => some .ms50
  | 1 => some .ms100
  | 2 => some .ms200
  | 3 => some .ms400
  | _ => none

/-- The code of a stability time (section 1.7). -/
def StabilityTime.code : StabilityTime → Nat
  | .ms50 => 0
  | .ms100 => 1
  | .ms200 => 2
  | .ms400 => 3

/-- A stability time in ms (section 1.7). -/
def StabilityTime.millis : StabilityTime → Nat
  | .ms50 => 50
  | .ms100 => 100
  | .ms200 => 200
  | .ms400 => 400

/-- A time of `ms` ms counted in samples of the period in force, rounded up (section 0.6, R1). -/
def samplesOf (p : Period) (ms : Nat) : Nat := (ms * 1000 + (p.micros - 1)) / p.micros

/-- Zone numbers, if every one is 0 to 31 (R50). -/
def zonesOf : List Nat → Option (List (Fin 32))
  | [] => some []
  | n :: ns =>
    match zoneOf n, zonesOf ns with
    | some z, some zs => some (z :: zs)
    | _, _ => none

/-- Whether no number is given twice (R50). -/
def distinct : List Nat → Bool
  | [] => true
  | n :: ns => !ns.contains n && distinct ns

/-- A zone put in its place of a list in rising order. -/
def insertZone (z : Fin 32) : List (Fin 32) → List (Fin 32)
  | [] => [z]
  | y :: ys => if z.val ≤ y.val then z :: y :: ys else y :: insertZone z ys

/-- A keep-out set in rising order: the order given has no meaning (R48). -/
def keepOutOf (zs : List (Fin 32)) : List (Fin 32) := zs.foldr insertZone []

/-- The engagement group at place `i` of a LOAD_TYPE payload (R178). -/
def groupAt (p : List Byte) (i : Nat) : Group :=
  { entry := at16 p i
    pins := at16 p (i + 2)
    fmin := at16 p (i + 4)
    fmax := at16 p (i + 6)
    settle := at16 p (i + 8) }

/-- The `n` groups from place `i` on (R178). -/
def groupsAt (p : List Byte) : Nat → Nat → List Group
  | _, 0 => []
  | i, n + 1 => groupAt p i :: groupsAt p (i + 10) n

/-- The type record of a LOAD_TYPE payload (R178). -/
def recordOf (p : List Byte) : TypeRecord :=
  { partCode := BitVec.ofNat 32 (at32 p 1)
    pinTotal := at16 p 5
    contactThreshold := at16 p 7
    confirmCount := at8 p 9
    approachLimit := at16 p 10
    groups := groupsAt p 38 (at8 p 12)
    seatStart := at16 p 13
    seatSearch := at16 p 15
    slopeThreshold := at16 p 17
    seatWindow := at8 p 19
    forceMax := at32 p 20
    overtravelMax := at16 p 24
    dwell := at16 p 26
    tiltLimit := at16 p 28
    tiltFloor := at32 p 30
    stallTime := at16 p 34
    strokeLimit := at16 p 36 }

/-! ### The codes R176 sends -/

/-- The position of a tare state in its list. -/
def TareState.code : TareState → Nat
  | .settling => 0
  | .stable => 1
  | .outOfRange => 2

/-- The position of a type state in its list. -/
def TypeState.code : TypeState → Nat
  | .absent => 0
  | .ready => 1
  | .draining => 2
  | .broken => 3

/-- The position of a board state in its list. -/
def BoardState.code : BoardState → Nat
  | .noBoard => 0
  | .isOpen => 1
  | .aborting => 2

/-- The position of a head state in its list. -/
def HeadState.code : HeadState → Nat
  | .idle => 0
  | .waiting => 1
  | .armed => 2
  | .approach => 3
  | .engage => 4
  | .seating => 5
  | .retract => 6
  | .halted => 7

/-- The position of a defined site's state in the list of R48; UNDEFINED is 0. -/
def SiteState.code : SiteState → Nat
  | .empty => 1
  | .loaded => 2
  | .claimed _ _ => 3
  | .pressing _ _ => 4
  | .seated _ => 5
  | .rejected => 6
  | .lockedOut => 7

/-- The code of a site's entry, 0 where it is UNDEFINED. -/
def siteCode : Option SiteEntry → Nat
  | none => 0
  | some e => e.state.code

/-- The state at grant as a site state's code (R48). -/
def GrantFrom.code : GrantFrom → Nat
  | .loaded => SiteState.loaded.code
  | .rejected => SiteState.rejected.code

/-- The code of an abort cause, 1 to 15 (R132, R134). -/
def Cause.code : Cause → Nat
  | .overforce => 1
  | .overrange => 2
  | .encoder => 3
  | .tilt => 4
  | .overtravel => 5
  | .depthLimit => 6
  | .noContact => 7
  | .stalled => 8
  | .sensorNoise => 9
  | .strokeTime => 10
  | .estop => 11
  | .linkDown => 12
  | .boardAbort => 13
  | .headStop => 14
  | .supervisorReset => 15

/-- The position of a group status in the list of R150. -/
def GroupStatus.code : GroupStatus → Nat
  | .pass => 0
  | .low => 1
  | .high => 2
  | .jointPass => 3
  | .jointLow => 4
  | .jointHigh => 5
  | .notReached => 6

/-- The position of a reason in the table of section 4.8. -/
def ClaimReason.code : ClaimReason → Nat
  | .siteChanged => 0
  | .typeBroken => 1
  | .boardClosed => 2
  | .boardAbort => 3
  | .estop => 4
  | .linkDown => 5
  | .supervisorReset => 6

/-- The position of an outcome in its list. -/
def StrokeOutcome.code : StrokeOutcome → Nat
  | .pass => 0
  | .reject => 1
  | .abort => 2

/-- The failure set in one byte: BAND_HIGH bit 0, BAND_LOW bit 1, GROUP_LOW bit 2, GROUP_HIGH
bit 3. -/
def FailureSet.code (f : FailureSet) : Nat :=
  packBits [f.bandHigh, f.bandLow, f.groupLow, f.groupHigh]

/-- The further-cause set in two bytes, code n as bit n. -/
def causesCode (cs : List Cause) : Nat := (cs.map fun c => 2 ^ c.code).sum

end Sys2Proof.Machine
end

