-- ==== Sys2Proof/Machine/Flags.lean ====
section
/-! DEFINITION. The conditions read off State: which head states are stroke states, the outputs
PERMIT and ATTN, reservations and slots, held zones, and what the blocks ask of each other. -/

namespace Sys2Proof.Machine

/-- The stroke states (section 5.1). -/
def HeadState.inStroke : HeadState → Bool
  | .approach | .engage | .seating => true
  | _ => false

/-- HALTED or RETRACT: the head still has to acknowledge its stroke's end (R43, R46). -/
def HeadState.unacknowledged : HeadState → Bool
  | .retract | .halted => true
  | _ => false

/-- The PERMIT output of a head: the monitor's drive, held inactive by ESTOP and RESET (R88, R89). -/
def State.permitOut (s : State) (h : Head) : Bool :=
  (s.monitor h).permit && !s.estop && !s.resetHeld

/-- The ATTN output: active while a record is held, inactive while RESET is asserted (R159). -/
def State.attn (s : State) : Bool := !s.records.isEmpty && !s.resetHeld

/-- The reserved count (R149): each head holds at most one reservation. -/
def State.reserved (s : State) : Nat := s.monitors.toList.countP (·.slot)

/-- A result slot is free (R75). -/
def State.slotFree (s : State) : Bool :=
  decide (s.records.length + s.reserved < Config.resultSlots)

/-- The zones a head holds, in rising order (R64). -/
def State.zonesHeld (s : State) (h : Head) : List (Fin 32) :=
  (List.finRange 32).filter fun z => s.holder z == some h

/-- The entries of the pending-update set (R22). -/
def State.pendingCount (s : State) : Nat := s.library.toList.countP (·.waiting.isSome)

/-- Some head is HALTED or RETRACT (R43, R46). -/
def State.someUnacknowledged (s : State) : Bool :=
  s.monitors.toList.any (·.state.unacknowledged)

/-- The claim queue's entry of a head (R65). -/
def State.entryOf (s : State) (h : Head) : Option QueueEntry :=
  s.queue.find? (·.head == h)

/-- A head's claim: the claim granted, or the one that waits in the queue (section 5.1). -/
def State.claimOf (s : State) (h : Head) : Option Claim :=
  match (s.monitor h).claim with
  | some c => some c
  | none => (s.entryOf h).map (·.claim)

/-- A head's position in the claim queue, the oldest entry as 1 (R67). -/
def State.queuePosition (s : State) (h : Head) : Option Nat :=
  if (s.entryOf h).isSome then some (s.queue.findIdx (·.head == h) + 1) else none

/-- A site is restrike-eligible: REJECTED, its last outcome ABORT with DEPTH_LIMIT, and attempts
below 3 (R55). -/
def SiteEntry.restrikeEligible (e : SiteEntry) : Bool :=
  e.state == .rejected && e.last == some (.abort .depthLimit) && decide (e.attempts < 3)

/-- A site meets the requirement of a claim's kind (R55). -/
def State.meets (s : State) (c : Claim) : Bool :=
  match s.site c.site with
  | none => false
  | some e => if c.restrike then e.restrikeEligible else e.state == .loaded

/-- The type a site names (R55). -/
def State.typeAt (s : State) (n : Fin 96) : Option (Fin 48) := (s.site n).map (·.typeNo)

/-- The state of a site's type, as the library reports it (R39). -/
def State.typeStateAt (s : State) (n : Fin 96) : Option TypeState :=
  (s.typeAt n).map fun t => (s.typeSlot t).state

/-- The keep-out set of a site (R55). -/
def State.keepOut (s : State) (n : Fin 96) : List (Fin 32) :=
  match s.site n with
  | none => []
  | some e => e.keepOut

/-- Two keep-out sets share a zone (R69). -/
def shareZone (a b : List (Fin 32)) : Bool := a.any fun z => b.contains z

/-- The number of flipped bits in a stored word (R33). -/
def StoredRecord.flippedIn (r : StoredRecord) (word : Nat) : Nat :=
  r.flips.countP (·.1 == word)

/-- No failure is in the set (R128). -/
def FailureSet.isEmpty (f : FailureSet) : Bool :=
  !f.bandHigh && !f.bandLow && !f.groupLow && !f.groupHigh

/-- The empty failure set (R128). -/
def FailureSet.none : FailureSet :=
  { bandHigh := false, bandLow := false, groupLow := false, groupHigh := false }

end Sys2Proof.Machine
end

