-- ==== Sys2Proof/Machine/Library.lean ====
section
/-! DEFINITION. The Envelope Library (section 2): the record checks, the integrity check of stored
records, user counts and installation, each on one slot. What the Arbiter does on a report of the
library stands in Arbiter.lean. -/

namespace Sys2Proof.Machine

/-! ### The record checks (R24) -/

/-- A failed check: its number, and the group that failed it, or 0 (R23). -/
structure CheckFailure where
  check : Nat
  group : Nat
  deriving DecidableEq, Repr

/-- A number lies in a range, both ends included. -/
def within (lo hi n : Nat) : Bool := decide (lo ≤ n ∧ n ≤ hi)

/-- A check of the record alone: group number 0 (R23). -/
def check (n : Nat) (ok : Bool) : Option CheckFailure :=
  if ok then none else some { check := n, group := 0 }

/-- A check made on each group in turn, the first of them numbered `k` (R24). -/
def checkEach (n : Nat) (ok : Group → Bool) : Nat → List Group → Option CheckFailure
  | _, [] => none
  | k, g :: gs => if ok g then checkEach n ok (k + 1) gs else some { check := n, group := k }

/-- Check 11: G1's entry depth is 0. The group it names is G1 (log 14). -/
def checkFirst : List Group → Option CheckFailure
  | [] => none
  | g :: _ => if g.entry = 0 then none else some { check := 11, group := 1 }

/-- Check 12: each group from G2 on enters below the previous one, and not before its settle span is
over. `k` is the number of the first group of the list. -/
def checkOrder : Nat → List Group → Option CheckFailure
  | k, g :: g' :: gs =>
    if g.entry < g'.entry ∧ g.entry + g.settle ≤ g'.entry then checkOrder (k + 1) (g' :: gs)
    else some { check := 12, group := k + 1 }
  | _, _ => none

/-- The depth at which the last group's settle span ends (check 14). -/
def lastSettled (gs : List Group) : Nat :=
  match gs.getLast? with
  | none => 0
  | some g => g.entry + g.settle

/-- The first failing check of R24, in order of check number and of group. -/
def firstFailure (r : TypeRecord) : Option CheckFailure :=
  (check 1 (within 1 8 r.groups.length)
  <|> check 2 (within 1 2000 r.pinTotal)
  <|> check 3 (within 10 50000 r.contactThreshold)
  <|> check 4 (within 1 8 r.confirmCount)
  <|> check 5 (within 1 50000 r.approachLimit)
  <|> checkEach 6 (fun g => within 0 20000 g.entry) 1 r.groups
  <|> checkEach 7 (fun g => within 1 1000 g.pins) 1 r.groups
  <|> checkEach 8 (fun g => within 1 5000 g.fmin && within 1 5000 g.fmax) 1 r.groups
  <|> checkEach 9 (fun g => decide (g.fmin ≤ g.fmax)) 1 r.groups
  <|> checkEach 10 (fun g => within 0 2000 g.settle) 1 r.groups
  <|> checkFirst r.groups
  <|> checkOrder 1 r.groups
  <|> check 13 (decide ((r.groups.map (·.pins)).sum = r.pinTotal))
  <|> check 14 (within 0 32000 r.seatStart && decide (lastSettled r.groups ≤ r.seatStart))
  <|> check 15 (within 1 10000 r.seatSearch)
  <|> check 16 (within 1 65535 r.slopeThreshold)
  <|> check 17 (within 2 16 r.seatWindow)
  <|> check 18 (within 1 2000000 r.forceMax)
  <|> check 19 (within 0 2000 r.overtravelMax)
  <|> check 20 (within 0 1000 r.dwell)
  <|> check 21 (within 1 1000 r.tiltLimit)
  <|> check 22 (within 0 2000000 r.tiltFloor)
  <|> check 23 (within 10 2000 r.stallTime)
  <|> check 24 (within 1 600 r.strokeLimit))

/-! ### Record integrity (R33) -/

/-- A record as it is stored: its check bits written with its words, no bit flipped. -/
def StoredRecord.fresh (r : TypeRecord) : StoredRecord := { fields := r, flips := [] }

/-- A (word, bit) pair put in its place of a strictly rising list, or taken out where it stands
there: a bit that flips twice is as stored. -/
def toggleFlip (w b : Nat) : List (Nat × Nat) → List (Nat × Nat)
  | [] => [(w, b)]
  | (w', b') :: rest =>
    if w' = w ∧ b' = b then rest
    else if w < w' ∨ (w = w' ∧ b < b') then (w, b) :: (w', b') :: rest
    else (w', b') :: toggleFlip w b rest

/-- A bit of a stored word flips in memory. -/
def StoredRecord.flip (r : StoredRecord) (word bit : Nat) : StoredRecord :=
  { r with flips := toggleFlip word bit r.flips }

/-- The flipped bits of words the check cannot correct: two or more in the word (log 11). -/
def StoredRecord.uncorrectable (r : StoredRecord) : List (Nat × Nat) :=
  r.flips.filter fun f => decide (2 ≤ r.flippedIn f.1)

/-- The words with a single-bit fault, which a read corrects (R33). -/
def StoredRecord.correctable (r : StoredRecord) : Nat :=
  r.flips.countP fun f => r.flippedIn f.1 == 1

/-- The record after a read: single-bit faults corrected and written back (R33). -/
def StoredRecord.corrected (r : StoredRecord) : StoredRecord := { r with flips := r.uncorrectable }

/-- A read of the record finds no uncorrectable word (R33). -/
def StoredRecord.readable (r : StoredRecord) : Bool := r.uncorrectable.isEmpty

/-- The correctable-fault count after `n` more words corrected: it stops at 255 (R33). -/
def addFaults (count n : Nat) : Nat := min (count + n) 255

/-- The slot after its active record has been read: corrections written back and counted (R33). -/
def TypeSlot.afterRead (slot : TypeSlot) (r : StoredRecord) : TypeSlot :=
  { slot with active := some r.corrected, faults := addFaults slot.faults r.correctable }

/-- The fields a successful read of the active record gives: with all corrections they are those
stored (R31, R33). -/
def TypeSlot.read (slot : TypeSlot) : Option TypeRecord :=
  match slot.active with
  | some r => if r.readable then some r.fields else none
  | none => none

/-- The slot after a read of its active record, whatever the read found (R33). -/
def TypeSlot.reread (slot : TypeSlot) : TypeSlot :=
  match slot.active with
  | some r => slot.afterRead r
  | none => slot

/-! ### Installation (R29, R36) and the reads of a DRAINING type (R35) -/

/-- The installing read succeeds: the pending record is active, its entry gone, the count the words
corrected in this read, the type READY (R29). -/
def TypeSlot.installed (slot : TypeSlot) (r : StoredRecord) : TypeSlot :=
  { slot with
    state := .ready, active := some r.corrected, waiting := none
    faults := addFaults 0 r.correctable }

/-- The installing read fails: the pending record is discarded and the type BROKEN; the words it
corrected are counted (R33, R36, log 12). -/
def TypeSlot.installFailed (slot : TypeSlot) (r : StoredRecord) : TypeSlot :=
  { slot with
    state := .broken, waiting := none, faults := addFaults slot.faults r.correctable }

/-- The installation of the pending record, with the check of R33 (R29, R36). -/
def TypeSlot.install (slot : TypeSlot) : TypeSlot :=
  match slot.waiting with
  | some r => if r.readable then slot.installed r else slot.installFailed r
  | none => slot

/-- A read of a DRAINING type whose active record is damaged turns to the pending record: readable,
it is written over the active record and stays pending; unreadable, the type is BROKEN (R35). -/
def TypeSlot.repair (slot : TypeSlot) : TypeSlot :=
  match slot.waiting with
  | some r =>
    let faults := addFaults slot.faults r.correctable
    if r.readable then
      { slot with active := some r.corrected, waiting := some r.corrected, faults := faults }
    else { slot with state := .broken, waiting := none, faults := faults }
  | none => { slot with state := .broken }

/-- A LOAD_TYPE that passed its checks is placed by the type's state (R25, R27). -/
def TypeSlot.place (slot : TypeSlot) (r : TypeRecord) : TypeSlot :=
  if slot.state = .draining then { slot with waiting := some (.fresh r) }
  else if slot.state ≠ .absent ∧ 0 < slot.users then
    { slot with state := .draining, waiting := some (.fresh r) }
  else { slot with state := .ready, active := some (.fresh r), faults := 0 }

end Sys2Proof.Machine
end

