-- ==== Sys2Proof/Machine/SiteTable.lean ====
section
/-! DEFINITION. The Board and Site Table (section 3): site changes under claims and strokes, and the
closing of a board. -/

namespace Sys2Proof.Machine

/-- How a stroke ended, as the Stroke Monitor hands it to the Site Table (section 3.5). -/
inductive Ending where
  | pass (seatDepth : Int)
  | reject (failures : FailureSet)
  | abort (cause : Cause) (contact : Bool)
  deriving DecidableEq, Repr

/-- The state a site returns to when its claim ends before START (R57). -/
def GrantFrom.toState : GrantFrom → SiteState
  | .loaded => .loaded
  | .rejected => .rejected

/-- The state at grant a site's state gives (R56): a restrike is granted from REJECTED alone. -/
def SiteState.asGrant : SiteState → GrantFrom
  | .rejected => .rejected
  | _ => .loaded

/-- A site granted to a head (R56). -/
def SiteEntry.claimFor (e : SiteEntry) (h : Head) : SiteEntry :=
  { e with state := .claimed h e.state.asGrant }

/-- A site whose armed claim ends before START, other than by UNLOAD (R57). -/
def SiteEntry.unclaim (e : SiteEntry) : SiteEntry :=
  match e.state with
  | .claimed _ g => { e with state := g.toState }
  | _ => e

/-- A site whose stroke starts (R58). -/
def SiteEntry.press (e : SiteEntry) : SiteEntry :=
  match e.state with
  | .claimed h g => { e with state := .pressing h g }
  | _ => e

/-- A site that UNLOAD has made EMPTY (R52). -/
def SiteEntry.unload (e : SiteEntry) : SiteEntry :=
  { e with state := .empty, attempts := 0, last := none }

/-- A counted attempt that is not PASS: REJECTED, or LOCKED_OUT when the attempts reach 3
(R59, R60). -/
def SiteEntry.fail (e : SiteEntry) (last : LastOutcome) : SiteEntry :=
  { e with
    state := if e.attempts + 1 < 3 then .rejected else .lockedOut
    attempts := e.attempts + 1
    last := some last }

/-- An abort is a counted attempt after contact, and with NO_CONTACT (R59, R137). -/
def countedAbort (cause : Cause) (contact : Bool) : Bool := contact || cause == .noContact

/-- A PRESSING site after its stroke's outcome is applied (R59). Any other site is unchanged
(R61). -/
def SiteEntry.apply (e : SiteEntry) (o : Ending) : SiteEntry :=
  match e.state with
  | .pressing _ g =>
    match o with
    | .pass depth => { e with state := .seated depth, attempts := e.attempts + 1, last := some .pass }
    | .reject failures => e.fail (.reject failures)
    | .abort cause contact =>
      if countedAbort cause contact then e.fail (.abort cause) else { e with state := g.toState }
  | _ => e

/-- A change of a defined site's entry; an UNDEFINED site is left as it is. -/
def State.changeSite (s : State) (n : Fin 96) (f : SiteEntry → SiteEntry) : State :=
  s.setSite n ((s.site n).map f)

/-- The site table with every site UNDEFINED and the board NO_BOARD with the default serial and
parameters (R42, R44, R46, R63). -/
def State.closeBoard (s : State) : State :=
  { s with board := .closed, sites := Vector.replicate 96 none }

/-- ABORTING ends when no head is HALTED or RETRACT (R46). -/
def State.closeIfAborted (s : State) : State :=
  if s.board.state = .aborting ∧ s.someUnacknowledged = false then s.closeBoard else s

/-- A type is named by a site that is not UNDEFINED (R37). -/
def State.typeNamed (s : State) (t : Fin 48) : Bool :=
  s.sites.toList.any fun e => (e.map (·.typeNo)) == some t

/-- The number of defined sites whose entry meets a condition (R44). -/
def State.countSites (s : State) (p : SiteEntry → Bool) : Nat :=
  s.sites.toList.countP fun e => e.any p

end Sys2Proof.Machine
end

