-- ==== Sys2Proof/Machine/Arbiter.lean ====
section
/-! DEFINITION. The Zone Arbiter (section 4): the claim queue, its pass, the grant, drops and ends of
claims, and what the Arbiter does on a report of the library. -/

namespace Sys2Proof.Machine

/-! ### Events of the Arbiter (section 5.10) -/

/-- CLAIM_DROPPED: site and reason (R80). -/
def State.eventDropped (s : State) (h : Head) (n : Fin 96) (r : ClaimReason) : State :=
  s.event h 65 (u8 n.val ++ u8 r.code)

/-- CLAIM_EXPIRED: site (R77). -/
def State.eventExpired (s : State) (h : Head) (n : Fin 96) : State := s.event h 66 (u8 n.val)

/-- CLAIM_REVOKED: site and reason (R81). -/
def State.eventRevoked (s : State) (h : Head) (n : Fin 96) (r : ClaimReason) : State :=
  s.event h 67 (u8 n.val ++ u8 r.code)

/-- GRANTED: site, type, part code of the working copy, restrike flag, claim hold time (R73). -/
def State.eventGranted (s : State) (h : Head) (c : Claim) (w : WorkingCopy) : State :=
  s.event h 64 (u8 c.site.val ++ u8 w.typeNo.val ++ u32 w.fields.partCode.toNat
    ++ flagByte c.restrike ++ u8 s.board.holdTime)

/-! ### Drops (R80) -/

/-- A head's entry leaves the claim queue; the entries behind it keep their order and counts (R65). -/
def State.leaveQueue (s : State) (h : Head) : State :=
  { s with queue := s.queue.filter fun e => !(e.head == h) }

/-- A waiting claim is dropped: its entry leaves, its head becomes IDLE and CLAIM_DROPPED is queued,
except for LINK_DOWN (R82) and for the no-wait entry of `arrival`, dropped in its own pass (R68). -/
def State.dropEntry (s : State) (arrival : Option Head) (r : ClaimReason) (e : QueueEntry) : State :=
  let s' := (s.leaveQueue e.head).setMonitor e.head .idle
  if r = .linkDown ∨ arrival = some e.head then s' else s'.eventDropped e.head e.claim.site r

/-- Several waiting claims dropped by one event, oldest first (R80). -/
def State.dropAll (s : State) (arrival : Option Head) (r : ClaimReason) (es : List QueueEntry) :
    State :=
  es.foldl (fun s e => s.dropEntry arrival r e) s

/-- The waiting claims on a site of a type. -/
def State.waitingOnType (s : State) (t : Fin 48) : List QueueEntry :=
  s.queue.filter fun e => s.typeAt e.claim.site == some t

/-- The waiting claims on a site. -/
def State.waitingOnSite (s : State) (n : Fin 96) : List QueueEntry :=
  s.queue.filter fun e => e.claim.site == n

/-- The library reports a type BROKEN: every waiting claim on it is dropped (R34, R36). -/
def State.dropBroken (s : State) (arrival : Option Head) (t : Fin 48) : State :=
  s.dropAll arrival .typeBroken (s.waitingOnType t)

/-! ### Users of a type (R28, R29) -/

/-- A state, and whether the step calls for a pass of the claim queue (R71). -/
structure Passing where
  state : State
  due : Bool
  deriving DecidableEq, Repr

/-- The pending record of a DRAINING type is installed (R29). READY, the report calls for a pass;
BROKEN, the waiting claims on the type are dropped, and a drop calls for one (R36, R71, R80). -/
def State.installType (s : State) (t : Fin 48) : Passing :=
  let slot := (s.typeSlot t).install
  let s' := s.setType t slot
  if slot.state = .broken then
    { state := s'.dropBroken none t, due := !(s'.waitingOnType t).isEmpty }
  else { state := s', due := true }

/-- A head's user of a type is released; a DRAINING type whose count reaches 0 is installed (R28,
R29). -/
def State.releaseUser (s : State) (t : Fin 48) : Passing :=
  let slot := s.typeSlot t
  let s' := s.setType t { slot with users := slot.users - 1 }
  if slot.state = .draining ∧ slot.users = 1 then s'.installType t
  else { state := s', due := false }

/-- The user a head holds by its working copy is released (R28). -/
def State.releaseUserOf (s : State) (h : Head) : Passing :=
  match (s.monitor h).copy with
  | some w => s.releaseUser w.typeNo
  | none => { state := s, due := false }

/-! ### Zones and the end of an armed claim (R57, R64, R77, R79, R81) -/

/-- Every zone a head holds loses its holder (R64). -/
def State.freeZones (s : State) (h : Head) : State :=
  { s with zones := Vector.ofFn fun z => if s.holder z = some h then none else s.holder z }

/-- Every zone of a keep-out set takes a head as holder (R73). -/
def State.takeZones (s : State) (h : Head) (zs : List (Fin 32)) : State :=
  { s with zones := Vector.ofFn fun z => if zs.contains z then some h else s.holder z }

/-- A head returns to IDLE: its claim, hold timer, reservation, working copy and stroke variables
are discarded (R87). -/
def State.toIdle (s : State) (h : Head) : State := s.setMonitor h .idle

/-- The site of a head's armed claim returns to its state at grant (R57). -/
def State.returnSite (s : State) (h : Head) : State :=
  match (s.monitor h).claim with
  | some c => s.changeSite c.site SiteEntry.unclaim
  | none => s

/-- An armed claim ends before START: the site returns to its state at grant where it is still
CLAIMED, the zones are freed, the reserved slot is returned, the head is IDLE and its working copy
discarded, and the user is released (R77, R79, R81). -/
def State.endArmed (s : State) (h : Head) : State :=
  ((((s.returnSite h).freeZones h).releaseUserOf h).state).toIdle h

/-- An armed claim is revoked: it ends, and CLAIM_REVOKED is queued, except for LINK_DOWN (R81,
R82). -/
def State.revoke (s : State) (h : Head) (r : ClaimReason) : State :=
  match (s.monitor h).claim with
  | some c =>
    if r = .linkDown then s.endArmed h else (s.endArmed h).eventRevoked h c.site r
  | none => s.endArmed h

/-! ### Grantability (R69) -/

/-- The entries older than a head's own, oldest first. -/
def State.olderThan (s : State) (h : Head) : List QueueEntry :=
  s.queue.takeWhile fun e => !(e.head == h)

/-- An older entry whose bypass count equals the limit shares a zone (R69, condition 5). -/
def State.blocked (s : State) (e : QueueEntry) : Bool :=
  (s.olderThan e.head).any fun o =>
    o.bypass == s.board.bypassLimit && shareZone (s.keepOut o.claim.site) (s.keepOut e.claim.site)

/-- No zone of a site's keep-out set has a holder (R69, condition 3). -/
def State.zonesFree (s : State) (n : Fin 96) : Bool :=
  (s.keepOut n).all fun z => (s.holder z).isNone

/-- A waiting entry is grantable (R69). -/
def State.grantable (s : State) (e : QueueEntry) : Bool :=
  s.meets e.claim && s.typeStateAt e.claim.site == some .ready && s.zonesFree e.claim.site
    && s.slotFree && !s.blocked e

/-! ### The grant (R73, R74) and the pass (R70) -/

/-- The effects of a grant whose read gave the fields `r` (R73). -/
def State.grant (s : State) (e : QueueEntry) (t : Fin 48) (r : TypeRecord) : State :=
  let w : WorkingCopy := { typeNo := t, fields := r }
  let slot := (s.typeSlot t).reread
  let s := s.setType t { slot with users := slot.users + 1 }
  let s := s.takeZones e.head (s.keepOut e.claim.site)
  let s := s.changeSite e.claim.site (·.claimFor e.head)
  let s := s.leaveQueue e.head
  let s := s.setMonitor e.head
    { Monitor.idle with
      state := .armed, claim := some e.claim, grantTime := some s.clock, slot := true
      copy := some w }
  s.eventGranted e.head e.claim w

/-- Every older entry still waiting whose keep-out set shares a zone with the granted site's has its
bypass count raised by 1 (R70, R72). -/
def State.raiseBypass (s : State) (older : List QueueEntry) (n : Fin 96) : State :=
  { s with
    queue := s.queue.map fun e =>
      if older.any (·.head == e.head) && shareZone (s.keepOut e.claim.site) (s.keepOut n) then
        { e with bypass := e.bypass + 1 }
      else e }

/-- What follows a grant: the other entries for the same site are dropped, then the bypass counts of
the older entries rise (R70). -/
def State.afterGrant (s : State) (arrival : Option Head) (older : List QueueEntry) (n : Fin 96) :
    State :=
  (s.dropAll arrival .siteChanged (s.waitingOnSite n)).raiseBypass older n

/-- A failed read of a READY type: BROKEN, with the corrections of the read written back, and its
waiting claims dropped (R34). -/
def State.breakType (s : State) (arrival : Option Head) (t : Fin 48) : State :=
  (s.setType t { (s.typeSlot t).reread with state := .broken }).dropBroken arrival t

/-- A grantable entry is granted, or its read fails (R73, R74). -/
def State.tryGrant (s : State) (arrival : Option Head) (e : QueueEntry) (t : Fin 48) : State :=
  match (s.typeSlot t).read with
  | some r => (s.grant e t r).afterGrant arrival (s.olderThan e.head) e.claim.site
  | none => s.breakType arrival t

/-- The pass takes one entry (R70). -/
def State.passEntry (s : State) (arrival : Option Head) (e : QueueEntry) : State :=
  if s.meets e.claim then
    if s.grantable e then
      match s.typeAt e.claim.site with
      | some t => s.tryGrant arrival e t
      | none => s
    else s
  else s.dropEntry arrival .siteChanged e

/-- The pass over the heads that had an entry when it began, oldest first: an entry that has left in
the meantime is not taken. -/
def State.passOver (arrival : Option Head) : List Head → State → State
  | [], s => s
  | h :: hs, s =>
    match s.entryOf h with
    | some e => State.passOver arrival hs (s.passEntry arrival e)
    | none => State.passOver arrival hs s

/-- A pass of the claim queue (R70). `arrival` is the head whose no-wait claim brought it. -/
def State.pass (s : State) (arrival : Option Head) : State :=
  State.passOver arrival (s.queue.map (·.head)) s

/-- The pass a step calls for, made once its own effects have been made (R71). -/
def Passing.run (p : Passing) : State := if p.due then p.state.pass none else p.state

end Sys2Proof.Machine
end

