-- ==== Sys2Proof/Machine/Evaluator.lean ====
section
/-! DEFINITION. The Profile Evaluator (section 6): depth, force bands, group steps, the seat and the
overtravel. All of it is integer arithmetic on the working copy's fields. -/

namespace Sys2Proof.Machine

/-- The evaluation state at START (R109): a group of entry depth 0 has the baseline 0. -/
def Evaluation.initial (gs : List Group) : Evaluation :=
  { depth := none, maxDepth := none, pendingBaseline := none
    captures := gs.map fun g => { baseline := if g.entry = 0 then some 0 else none, step := none }
    chain := none, results := [], failures := .none, firstBandDepth := none, window := []
    overtravel := none }

/-! ### Depth (R111) -/

/-- The maximum depth after a sample of depth `d`. -/
def deeper (before : Option Int) (d : Int) : Int :=
  match before with
  | none => d
  | some m => max m d

/-- D rose on a sample of depth `d`. -/
def rose (before : Option Int) (d : Int) : Bool :=
  match before with
  | none => true
  | some m => decide (m < d)

/-- Stage 1 of R110: d and D. -/
def Evaluation.deepen (e : Evaluation) (d : Int) : Evaluation :=
  { e with depth := some d, maxDepth := some (deeper e.maxDepth d) }

/-! ### Force bands (R112 to R114) -/

/-- The entered groups at a maximum depth (R112). -/
def entered (gs : List Group) (maxD : Int) : List Group :=
  gs.filter fun g => decide ((g.entry : Int) ≤ maxD)

/-- The sum of pins × fmax (R112). -/
def upperForce (gs : List Group) : Nat := (gs.map fun g => g.pins * g.fmax).sum

/-- The sum of pins × fmin (R113). -/
def lowerForce (gs : List Group) : Nat := (gs.map fun g => g.pins * g.fmin).sum

/-- The lower band applies: D is at least the entry depth plus the settle span of the latest entered
group (R113). -/
def lowerApplies (gs : List Group) (maxD : Int) : Bool :=
  match gs.getLast? with
  | none => false
  | some g => decide (((g.entry + g.settle : Nat) : Int) ≤ maxD)

/-- Stage 2 of R110, on a sample of depth `d` and net force `f`: the band checks. -/
def Evaluation.checkBands (e : Evaluation) (gs : List Group) (maxD d f : Int) : Evaluation :=
  let inside := entered gs maxD
  let high := !inside.isEmpty && decide ((upperForce inside : Int) < f)
  let low := lowerApplies inside maxD && decide (f < (lowerForce inside : Int))
  { e with
    failures := { e.failures with
      bandHigh := e.failures.bandHigh || high
      bandLow := e.failures.bandLow || low }
    firstBandDepth := if e.firstBandDepth.isNone ∧ (high ∨ low) then some d else e.firstBandDepth }

/-! ### Group steps (R115 to R121) -/

/-- A group is entered on the sample that carries D from `before` to `maxD` (R115). -/
def enteredNow (before : Option Int) (maxD : Int) (g : Group) : Bool :=
  decide ((g.entry : Int) ≤ maxD)
    && (match before with
      | none => true
      | some m => decide (m < (g.entry : Int)))

/-- The baselines of the groups from G2 on that a sample enters become the pending baseline (R115). -/
def captureBaselines (before : Option Int) (maxD : Int) (pendingBase : Option Int) :
    List Group → List GroupCapture → List GroupCapture
  | g :: gs, c :: cs =>
    (if enteredNow before maxD g then { c with baseline := pendingBase } else c)
      :: captureBaselines before maxD pendingBase gs cs
  | _, cs => cs

/-- The baselines after a sample; G1's is 0 throughout (R115). -/
def baselinesAfter (before : Option Int) (maxD : Int) (pendingBase : Option Int) :
    List Group → List GroupCapture → List GroupCapture
  | _ :: gs, c :: cs => c :: captureBaselines before maxD pendingBase gs cs
  | _, cs => cs

/-- The pending baseline after a sample: its net force, while a group from G2 on is not yet entered
(R115). -/
def pendingAfter (gs : List Group) (maxD f : Int) : Option Int :=
  if gs.tail.any fun g => decide (maxD < (g.entry : Int)) then some f else none

/-- The status of a judged chain: `joint` where it has several members (R118). -/
def judge (joint : Bool) (step lower upper : Int) : GroupStatus :=
  if step < lower then (if joint then .jointLow else .low)
  else if upper < step then (if joint then .jointHigh else .high)
  else (if joint then .jointPass else .pass)

/-- The judgement is LOW or JOINT_LOW. -/
def GroupStatus.isLow (st : GroupStatus) : Bool := st == .low || st == .jointLow

/-- The judgement is HIGH or JOINT_HIGH. -/
def GroupStatus.isHigh (st : GroupStatus) : Bool := st == .high || st == .jointHigh

/-- The smallest fmin of the members (R120). -/
def leastFmin : List Group → Nat
  | [] => 0
  | [g] => g.fmin
  | g :: gs => min g.fmin (leastFmin gs)

/-- The pins of the members together. -/
def pinsOf (gs : List Group) : Nat := (gs.map (·.pins)).sum

/-- The deficit estimate: pins less floor(step / fmin), clamped to 0 up to the pins (R120). A joint chain
of different fmin can be JOINT_LOW with a step of at least its pins times the smallest fmin. The formula
then gives 0, where R120 also says that the estimate is at least 1: the formula is followed
(DESIGN CHOICE, log 27). -/
def deficitOf (members : List Group) (step : Int) : Nat :=
  (max 0 (min ((pinsOf members : Int) - Int.fdiv step (leastFmin members)) (pinsOf members))).toNat

/-- The results of a chain, one per member from group number `index` on: all carry the status, the
step and the mean, and the first the deficit estimate (R119, R120, R121). -/
def chainResults (status : GroupStatus) (step mean : Int) (deficit : Option Nat) (index : Nat) :
    List Group → List GroupResult
  | [] => []
  | _ :: gs =>
    { index := index, status := status, step := some step, mean := some mean, deficit := deficit }
      :: chainResults status step mean none (index + 1) gs

/-- The chain that closes at the group of place `k` (counted from 0) on a step sample of force `f` is
judged (R118). Its members run from the first group not yet judged. -/
def Evaluation.closeChain (e : Evaluation) (gs : List Group) (k : Nat) (f : Int) : Evaluation :=
  let first := e.results.length
  let members := (gs.drop first).take (k + 1 - first)
  let base := ((e.captures[first]?).bind (·.baseline)).getD 0
  let step := f - base
  let status := judge (decide (1 < members.length)) step (lowerForce members) (upperForce members)
  let mean := Int.tdiv step (pinsOf members)
  let deficit := if status.isLow then some (deficitOf members step) else none
  { e with
    chain := none
    results := e.results ++ chainResults status step mean deficit (first + 1) members
    failures := { e.failures with
      groupLow := e.failures.groupLow || status.isLow
      groupHigh := e.failures.groupHigh || status.isHigh } }

/-- A group's step capture (R116). -/
def Evaluation.captureStep (e : Evaluation) (k : Nat) (f : Int) : Evaluation :=
  { e with captures := e.captures.modify k fun c => { c with step := some f } }

/-- A group's step sample has been taken. -/
def Evaluation.stepTaken (e : Evaluation) (k : Nat) : Bool :=
  ((e.captures[k]?).bind (·.step)).isSome

/-- The groups from place `k` on, in order: each whose step sample this is is captured, and then left
open where D has reached the next group's entry, or closes its chain (R116, R117). -/
def Evaluation.takeSteps (gs : List Group) (maxD f : Int) : Nat → List Group → Evaluation → Evaluation
  | _, [], e => e
  | k, g :: rest, e =>
    let e' :=
      if e.stepTaken k = false ∧ ((g.entry + g.settle : Nat) : Int) ≤ maxD then
        let e := e.captureStep k f
        match rest with
        | next :: _ =>
          if (next.entry : Int) ≤ maxD then { e with chain := some (e.results.length + 1, k + 2) }
          else e.closeChain gs k f
        | [] => e.closeChain gs k f
      else e
    Evaluation.takeSteps gs maxD f (k + 1) rest e'

/-- Stage 3 of R110: baselines, step samples and judgements, on a sample that carried D from
`before` to `maxD`. -/
def Evaluation.takeGroups (e : Evaluation) (gs : List Group) (before : Option Int) (maxD f : Int) :
    Evaluation :=
  Evaluation.takeSteps gs maxD f 0 gs
    { e with
      captures := baselinesAfter before maxD e.pendingBaseline gs e.captures
      pendingBaseline := pendingAfter gs maxD f }

/-- The results of the groups not judged, from group number `index` on (R122). -/
def notReached : Nat → List Group → List GroupResult
  | _, [] => []
  | index, _ :: gs =>
    { index := index, status := .notReached, step := none, mean := none, deficit := none }
      :: notReached (index + 1) gs

/-- The completed list of group results (R122); a restrike has none (R123). Every other item stays as
the last evaluated sample left it, a chain still open among them (R109). -/
def Evaluation.complete (e : Evaluation) (gs : List Group) (restrike : Bool) : Evaluation :=
  if restrike then e
  else { e with
    results := e.results ++ notReached (e.results.length + 1) (gs.drop e.results.length) }

/-! ### The seat (R124 to R126) -/

/-- The slope window after a sample: the latest w + 1 samples (R124). -/
def pushWindow (w : Nat) (window : List (Int × Int)) (d f : Int) : List (Int × Int) :=
  if window.length < w + 1 then window ++ [(d, f)] else window.tail ++ [(d, f)]

/-- The seat slope over a window whose latest sample is (d, f): formed when the window holds w + 1
samples and the depth gained is at least 1, truncated toward zero (R125). -/
def seatSlope (w : Nat) (window : List (Int × Int)) (d f : Int) : Option Int :=
  match window with
  | [] => none
  | (d₀, f₀) :: _ =>
    if window.length = w + 1 ∧ 1 ≤ d - d₀ then some (Int.tdiv (f - f₀) (d - d₀)) else none

/-- A sample lies in the seat zone: D at least the seat zone start, and every sample of a restrike
(R123, R124). -/
def inSeatZone (r : TypeRecord) (restrike : Bool) (maxD : Int) : Bool :=
  restrike || decide ((r.seatStart : Int) ≤ maxD)

/-- A slope finds the seat (R126). -/
def findsSeat (r : TypeRecord) (slope : Option Int) : Bool :=
  match slope with
  | none => false
  | some v => decide ((r.slopeThreshold : Int) ≤ v)

/-- Stages 2 and 3 of R110: a restrike takes neither, and the band checks stop where D reaches the
seat zone start (R114, R123). -/
def Evaluation.judgeSample (e : Evaluation) (r : TypeRecord) (restrike : Bool) (before : Option Int)
    (maxD d f : Int) : Evaluation :=
  if restrike then e
  else if maxD < (r.seatStart : Int) then
    (e.checkBands r.groups maxD d f).takeGroups r.groups before maxD f
  else e.takeGroups r.groups before maxD f

/-- What the evaluator reports of a sample in ENGAGE: its state, whether D rose, and the seat depth
where the sample finds the seat. -/
structure Evaluated where
  eval : Evaluation
  rose : Bool
  seat : Option Int
  deriving DecidableEq, Repr

/-- The work on a sample in ENGAGE of depth `d` and net force `f` (R110, stages 1 to 4, and 5 where it
finds the seat). -/
def Evaluation.engage (e : Evaluation) (r : TypeRecord) (restrike : Bool) (d f : Int) : Evaluated :=
  let maxD := deeper e.maxDepth d
  let e' := (e.deepen d).judgeSample r restrike e.maxDepth maxD d f
  let window := pushWindow r.seatWindow e'.window d f
  let e' := { e' with window := window }
  if inSeatZone r restrike maxD ∧ findsSeat r (seatSlope r.seatWindow window d f) then
    { eval := { e' with overtravel := some 0 }, rose := rose e.maxDepth d, seat := some d }
  else { eval := e', rose := rose e.maxDepth d, seat := none }

/-- The work on a sample in SEATING: d, D and the overtravel (R110 stages 1 and 5, R127). -/
def Evaluation.seating (e : Evaluation) (d seatDepth : Int) : Evaluation :=
  { e.deepen d with overtravel := some (d - seatDepth) }

end Sys2Proof.Machine
end

