-- ==== Sys2Proof/Machine/Sensing.lean ====
section
/-! DEFINITION. The Sensing Front End (section 1): corner conversion, force, tilt, the encoder, the
tare tracker and the head's configuration. -/

namespace Sys2Proof.Machine

/-! ### Corner conversion (R3 to R7) -/

/-- The median of three sub-conversions (R3). -/
def median (v : Conversions) : Int :=
  max (min v.a.toInt v.b.toInt) (min (max v.a.toInt v.b.toInt) v.c.toInt)

/-- The spread: the largest sub-conversion less the smallest (R3). -/
def spread (v : Conversions) : Int :=
  max (max v.a.toInt v.b.toInt) v.c.toInt - min (min v.a.toInt v.b.toInt) v.c.toInt

/-- A converter value equals a rail (R3). -/
def atRail (x : BitVec 20) : Bool := x.toInt == Config.railLow || x.toInt == Config.railHigh

/-- A corner is SATURATED: a sub-conversion equals a rail (R4). -/
def isSaturated (v : Conversions) : Bool := atRail v.a || atRail v.b || atRail v.c

/-- A corner is NOISY: its spread exceeds the noise limit (R4). -/
def isNoisy (limit : Nat) (v : Conversions) : Bool := decide ((limit : Int) < spread v)

/-- The force of a median at a gain: m × G / 4,096, rounded half away from zero (R7). -/
def scaleForce (m : Int) (gain : Nat) : Int :=
  if 0 ≤ m then (m * gain + 2048) / 4096 else -((-m * gain + 2048) / 4096)

/-- The force a corner contributes to a sample (R4). -/
def cornerForce (limit : Nat) (c : Corner) (v : Conversions) : Int :=
  if isNoisy limit v then c.held else scaleForce (median v) c.gain

/-- What a front end keeps of a corner after a sample: the held last value is renewed by a clean
corner alone, and the run rises on a NOISY one, to at most 3 (R4, R5, R6). -/
def cornerAfter (limit : Nat) (c : Corner) (v : Conversions) : Corner :=
  { c with
    held := if isNoisy limit v || isSaturated v then c.held else cornerForce limit c v
    noiseRun := if isNoisy limit v then min (c.noiseRun + 1) 3 else 0 }

/-- A corner's entry in the sample record (R13). The noisy-run condition holds where the run stands
at 3 after the sample's update (R5). -/
def cornerEntry (limit : Nat) (c : Corner) (v : Conversions) : CornerEntry :=
  { force := cornerForce limit c v
    saturated := isSaturated v
    noisy := isNoisy limit v
    noisyRun := decide ((cornerAfter limit c v).noiseRun = 3) }

/-! ### Force and tilt (R8, R9) -/

/-- The gross force: the sum of the four corner forces (R8). -/
def grossForce (cs : PerCorner CornerEntry) : Int :=
  cs.c0.force + cs.c1.force + cs.c2.force + cs.c3.force

/-- The largest corner force less the smallest (R9). -/
def forceRange (cs : PerCorner CornerEntry) : Int :=
  max (max cs.c0.force cs.c1.force) (max cs.c2.force cs.c3.force)
    - min (min cs.c0.force cs.c1.force) (min cs.c2.force cs.c3.force)

/-- Tilt is evaluated in these head states (R9). -/
def HeadState.evaluatesTilt (st : HeadState) : Bool := st.inStroke || st == .halted

/-- The tilt of a sample, in per mille: present in the states of R9, where the gross force is at
least the tilt floor of the working copy and above 0. -/
def tiltOf (m : Monitor) (cs : PerCorner CornerEntry) : Option Nat :=
  match m.copy with
  | none => none
  | some copy =>
    if m.state.evaluatesTilt ∧ (copy.fields.tiltFloor : Int) ≤ grossForce cs ∧ 0 < grossForce cs then
      some (forceRange cs * 1000 / grossForce cs).toNat
    else none

/-! ### The sample record (R13) -/

/-- The corner entries of a sample. -/
def cornerEntries (f : FrontEnd) (conv : PerCorner Conversions) : PerCorner CornerEntry :=
  f.corners.zipWith (cornerEntry f.noiseLimit) conv

/-- The sample record of a completed sample (R13). The net force uses the tare in force before the
tracker's own step on the sample (R8). -/
def sampleRecord (h : Head) (f : FrontEnd) (m : Monitor) (conv : PerCorner Conversions) :
    SampleRecord :=
  let cs := cornerEntries f conv
  { head := h
    corners := cs
    gross := grossForce cs
    net := grossForce cs - f.tare.value
    tilt := tiltOf m cs
    position := f.position
    periodFault := f.periodFault }

/-- Some corner carries the noisy-run condition (R5). -/
def SampleRecord.anyNoisyRun (r : SampleRecord) : Bool := r.corners.toList.any (·.noisyRun)

/-- Some corner is marked SATURATED (R4). -/
def SampleRecord.anySaturated (r : SampleRecord) : Bool := r.corners.toList.any (·.saturated)

/-- The number of NOISY corners (R6). -/
def SampleRecord.noisyCount (r : SampleRecord) : Nat := r.corners.toList.countP (·.noisy)

/-! ### The tare tracker (R14 to R16) -/

/-- A restart: the run 0 and the state SETTLING, T and Q kept (R16). -/
def Tare.restart (t : Tare) : Tare := { t with run := 0, state := .settling }

/-- The decision on the candidate, on the sample on which the run reaches N_s (R15). -/
def Tare.adopt (t : Tare) (hysteresis : Nat) : Tare :=
  if Config.tareLimit < t.candidate.natAbs then { t with state := .outOfRange }
  else if hysteresis < (t.candidate - t.value).natAbs then
    { t with value := t.candidate, state := .stable }
  else { t with state := .stable }

/-- One step of the tracker on a sample of gross force `g` (R15). -/
def Tare.step (t : Tare) (hysteresis ns : Nat) (g : Int) : Tare :=
  if hysteresis < (g - t.candidate).natAbs then
    { t with candidate := g, run := 0, state := .settling }
  else if t.run < ns then
    if t.run + 1 = ns then ({ t with run := ns }).adopt hysteresis
    else { t with run := t.run + 1 }
  else t

/-- N_s: the stability time in samples of the period in force (R1). -/
def stabilitySamples (p : Period) (f : FrontEnd) : Nat := samplesOf p f.stability.millis

/-- The tracker on a sample completed in a head state (R14, R16): frozen in the stroke states;
elsewhere restarted by a noisy-run condition or a SATURATED corner, and otherwise stepped. -/
def FrontEnd.track (f : FrontEnd) (p : Period) (st : HeadState) (r : SampleRecord) : Tare :=
  if st.inStroke then f.tare
  else if r.anyNoisyRun || r.anySaturated then f.tare.restart
  else f.tare.step f.hysteresis (stabilitySamples p f) r.gross

/-- The held-value count after a sample: in the stroke states it rises by 1 for each NOISY corner,
to at most 255 (R6). -/
def FrontEnd.countHeld (f : FrontEnd) (st : HeadState) (r : SampleRecord) : Nat :=
  if st.inStroke then min (f.heldCount + r.noisyCount) 255 else f.heldCount

/-- The front end after it has completed a sample (R4 to R6, R11, R13, R14). -/
def FrontEnd.complete (f : FrontEnd) (p : Period) (st : HeadState) (conv : PerCorner Conversions)
    (r : SampleRecord) : FrontEnd :=
  { f with
    corners := f.corners.zipWith (cornerAfter f.noiseLimit) conv
    tare := f.track p st r
    periodFault := false
    heldCount := f.countHeld st r
    latest := r }

/-- The front end with its tare tracker restarted (R16). -/
def FrontEnd.restartTare (f : FrontEnd) : FrontEnd := { f with tare := f.tare.restart }

/-! ### The encoder (R10, R11) -/

/-- The phase one on in the downward order (0,0), (1,0), (1,1), (0,1) (R10). -/
def phaseOn (p : Phase) : Phase := { a := !p.b, b := p.a }

/-- An illegal transition, or one that would carry the counter past an end: the flag and the
indicator are set and the counter stays (R11). -/
def FrontEnd.illegal (f : FrontEnd) : FrontEnd :=
  { f with encoderFault := true, periodFault := true }

/-- The front end after the channel pair is observed at `seen` (R10, R11). -/
def FrontEnd.observe (f : FrontEnd) (seen : Phase) : FrontEnd :=
  let f' := { f with phase := seen }
  if seen = f.phase then f'
  else if seen = phaseOn f.phase then
    if f.position < Config.positionMax then { f' with position := f.position + 1 } else f'.illegal
  else if f.phase = phaseOn seen then
    if Config.positionMin < f.position then { f' with position := f.position - 1 } else f'.illegal
  else f'.illegal

/-- HOME: the counter 0, the homed flag set, the encoder-fault flag and the period fault indicator
clear (R12). -/
def FrontEnd.home (f : FrontEnd) : FrontEnd :=
  { f with position := 0, homed := true, encoderFault := false, periodFault := false }

/-! ### Configuration and warm reset (R18, R21) -/

/-- The configuration CONFIGURE_HEAD sets, its values in range (R18): the gains at least 1, the
hysteresis at most 2,000; the held last values 0; the tracker restarted. -/
def FrontEnd.configure (f : FrontEnd) (gains : PerCorner Nat) (noise hysteresis : Nat)
    (stability : StabilityTime) : FrontEnd :=
  { f with
    corners := f.corners.zipWith (fun c g => { c with gain := max g 1, held := 0 }) gains
    noiseLimit := noise
    hysteresis := min hysteresis 2000
    stability := stability
    tare := f.tare.restart }

/-- The front end's part of a warm reset: the noise runs and the held-value count 0 (R21). -/
def FrontEnd.warmReset (f : FrontEnd) : FrontEnd :=
  { f with corners := f.corners.map fun c => { c with noiseRun := 0 }, heldCount := 0 }

end Sys2Proof.Machine
end

