-- ==== Sys2Proof/Machine/Strokes.lean ====
section
/-! DEFINITION. The Stroke Monitor (sections 5, 7 and 8): the start of a stroke, its samples, the
verdict, the abort, HALTED, and the press record. -/

namespace Sys2Proof.Machine

/-! ### Starting a stroke (R91) -/

/-- The stroke variables an accepted START sets (R91, R152, R153). -/
def Stroke.begin (r : TypeRecord) (p : Period) (serial : BitVec 32) (attempts : Nat)
    (f : FrontEnd) : Stroke :=
  { serial := serial
    attempt := attempts + 1
    startPosition := f.position
    strokeLimit := samplesOf p (r.strokeLimit * 100)
    stallLimit := samplesOf p r.stallTime
    dwellLimit := samplesOf p r.dwell
    count := 0, contactRun := 0, candidate := none, contactPosition := none, stallRun := 0
    seatDepth := none, dwell := 0
    peakForce := f.latest.net, peakTilt := none, samples := 0, samplesSaturated := false
    eval := .initial r.groups
    abort := none }

/-! ### A stroke sample (R93 to R99) -/

/-- The larger of the peak tilt and a sample's tilt, where present (R152). -/
def peakOf (peak tilt : Option Nat) : Option Nat :=
  match peak, tilt with
  | none, t => t
  | p, none => p
  | some p, some t => some (max p t)

/-- Step 1 of R93: the stroke sample count and the figures of R152. -/
def Stroke.countSample (k : Stroke) (rec : SampleRecord) : Stroke :=
  { k with
    count := k.count + 1
    samples := min (k.samples + 1) 65535
    samplesSaturated := k.samplesSaturated || decide (65535 ≤ k.samples + 1)
    peakForce := max k.peakForce rec.net
    peakTilt := peakOf k.peakTilt rec.tilt }

/-- What step 2 of R93 leaves: the head state, the stroke variables, and the events it queues. -/
structure Progress where
  state : HeadState
  stroke : Stroke
  contact : Bool
  seated : Bool
  deriving DecidableEq, Repr

/-- A sample in ENGAGE handed to the evaluator, with the stall run updated: 0 on the confirming
sample, and else 0 or one more as D rose or not (R97). The seat puts the head in SEATING (R98). -/
def Stroke.engage (k : Stroke) (r : TypeRecord) (restrike confirming : Bool) (pc : Int)
    (rec : SampleRecord) : Progress :=
  let out := k.eval.engage r restrike (rec.position - pc) rec.net
  let k' := { k with
    eval := out.eval
    stallRun := if confirming || out.rose then 0 else k.stallRun + 1 }
  match out.seat with
  | some d =>
    { state := .seating, stroke := { k' with seatDepth := some d, dwell := 0 }
      contact := confirming, seated := true }
  | none => { state := .engage, stroke := k', contact := confirming, seated := false }

/-- A sample in APPROACH: the contact run, and the contact it may confirm (R95, R96). -/
def Stroke.approach (k : Stroke) (r : TypeRecord) (restrike : Bool) (rec : SampleRecord) : Progress :=
  if (r.contactThreshold : Int) ≤ rec.net then
    let candidate := if k.contactRun = 0 then rec.position else k.candidate.getD rec.position
    let k' := { k with contactRun := k.contactRun + 1, candidate := some candidate }
    if r.confirmCount ≤ k.contactRun + 1 then
      ({ k' with contactPosition := some candidate }).engage r restrike true candidate rec
    else { state := .approach, stroke := k', contact := false, seated := false }
  else
    { state := .approach, stroke := { k with contactRun := 0, candidate := none }
      contact := false, seated := false }

/-- A sample in SEATING: the overtravel, and the dwell count one more (R99, R127). -/
def Stroke.seat (k : Stroke) (pc : Int) (rec : SampleRecord) : Progress :=
  { state := .seating
    stroke := { k with
      eval := k.eval.seating (rec.position - pc) (k.seatDepth.getD 0)
      dwell := k.dwell + 1 }
    contact := false, seated := false }

/-- Step 2 of R93 in a stroke state. -/
def Stroke.progress (k : Stroke) (st : HeadState) (r : TypeRecord) (restrike : Bool)
    (rec : SampleRecord) : Progress :=
  match st with
  | .approach => k.approach r restrike rec
  | .engage => k.engage r restrike false (k.contactPosition.getD 0) rec
  | _ => k.seat (k.contactPosition.getD 0) rec

/-! ### The causes (R132, R133, R138) -/

/-- A cause, where its condition holds. -/
def causeIf (c : Cause) (found : Bool) : List Cause := if found then [c] else []

/-- Tilt is present and exceeds the tilt limit. -/
def tiltExceeds (r : TypeRecord) (rec : SampleRecord) : Bool :=
  match rec.tilt with
  | none => false
  | some t => decide (r.tiltLimit < t)

/-- The causes of codes 1 to 4, which a stroke sample and a HALTED sample are both checked for. -/
def sampleCauses (r : TypeRecord) (rec : SampleRecord) : List Cause :=
  causeIf .overforce (decide ((r.forceMax : Int) < rec.net))
    ++ causeIf .overrange rec.anySaturated
    ++ causeIf .encoder rec.periodFault
    ++ causeIf .tilt (tiltExceeds r rec)

/-- The depth limit (R133). -/
def depthLimit (r : TypeRecord) (restrike : Bool) : Nat :=
  if restrike then r.seatSearch else r.seatStart + r.seatSearch

/-- The overtravel exceeds the overtravel maximum. -/
def overtravelExceeds (r : TypeRecord) (k : Stroke) : Bool :=
  match k.eval.overtravel with
  | none => false
  | some o => decide ((r.overtravelMax : Int) < o)

/-- The maximum depth has reached the depth limit. -/
def depthReached (r : TypeRecord) (restrike : Bool) (k : Stroke) : Bool :=
  match k.eval.maxDepth with
  | none => false
  | some d => decide ((depthLimit r restrike : Int) ≤ d)

/-- Every cause found on a stroke sample, against the state step 2 left, in order of code (R132). -/
def strokeCauses (st : HeadState) (r : TypeRecord) (restrike : Bool) (k : Stroke)
    (rec : SampleRecord) : List Cause :=
  sampleCauses r rec
    ++ causeIf .overtravel (st == .seating && overtravelExceeds r k)
    ++ causeIf .depthLimit (st == .engage && depthReached r restrike k)
    ++ causeIf .noContact
      (st == .approach && decide ((r.approachLimit : Int) < rec.position - k.startPosition))
    ++ causeIf .stalled (st == .engage && decide (k.stallLimit ≤ k.stallRun))
    ++ causeIf .sensorNoise rec.anyNoisyRun
    ++ causeIf .strokeTime (decide (k.strokeLimit ≤ k.count))

/-- A cause put in its place of a further-cause set, kept in order of code, where it is not held. -/
def insertCause (c : Cause) : List Cause → List Cause
  | [] => [c]
  | d :: ds =>
    if c.code < d.code then c :: d :: ds else if c = d then d :: ds else d :: insertCause c ds

/-- A cause joins the further-cause set of a halted head, unless it is the primary cause (R135). -/
def AbortItems.join (a : AbortItems) (c : Cause) : AbortItems :=
  if c = a.primary then a else { a with further := insertCause c a.further }

/-- Causes join the further-cause set of a HALTED head; any other head is left as it is (R138,
R139). -/
def Monitor.joinCauses (m : Monitor) (cs : List Cause) : Monitor :=
  match m.state, m.stroke with
  | .halted, some k =>
    { m with stroke := some { k with abort := k.abort.map fun a => cs.foldl AbortItems.join a } }
  | _, _ => m

/-! ### The press record (R150 to R154) -/

/-- The record of a stroke (R150), its optional fields as R151 gives them for the outcome. -/
def pressRecord (h : Head) (c : Claim) (w : WorkingCopy) (k : Stroke) (held : Nat)
    (o : StrokeOutcome) (cause : Option (Cause × List Cause)) : PressRecord :=
  { serial := k.serial
    site := c.site
    typeNo := w.typeNo
    partCode := w.fields.partCode
    head := h
    attempt := k.attempt
    restrike := c.restrike
    outcome := o
    failures := if o = .pass then none else some k.eval.failures
    firstBandDepth := k.eval.firstBandDepth
    causes := cause
    contactPosition := k.contactPosition
    seatDepth := k.seatDepth
    overtravel := k.eval.overtravel
    peakForce := k.peakForce
    peakTilt := k.peakTilt
    samples := k.samples
    samplesSaturated := k.samplesSaturated
    heldCount := held
    groups := if c.restrike then none else some k.eval.results }

/-- The record appended at the young end of the result queue (R148, R156). -/
def State.appendRecord (s : State) (r : PressRecord) : State := { s with records := s.records ++ [r] }

/-! ### Events of the monitor (section 5.10) -/

/-- CONTACT: site, p_c, stroke sample count (R96). -/
def State.eventContact (s : State) (h : Head) (n : Fin 96) (k : Stroke) : State :=
  s.event h 68 (u8 n.val ++ s32 (k.contactPosition.getD 0) ++ u32 k.count)

/-- SEATED: site, seat depth, stroke sample count (R98). -/
def State.eventSeated (s : State) (h : Head) (n : Fin 96) (k : Stroke) : State :=
  s.event h 69 (u8 n.val ++ s32 (k.seatDepth.getD 0) ++ u32 k.count)

/-- VERDICT: site, verdict, failure set, the site's state and attempts after the outcome (R100). -/
def State.eventVerdict (s : State) (h : Head) (n : Fin 96) (o : StrokeOutcome) (f : FailureSet) :
    State :=
  s.event h 70 (u8 n.val ++ u8 o.code ++ u8 f.code ++ u8 (siteCode (s.site n))
    ++ u8 (((s.site n).map (·.attempts)).getD 0))

/-- ABORTED: site and primary cause (R136). -/
def State.eventAborted (s : State) (h : Head) (n : Fin 96) (c : Cause) : State :=
  s.event h 71 (u8 n.val ++ u8 c.code)

/-! ### The abort (R135 to R137, R141) -/

/-- Contact had been confirmed when the stroke was aborted in a head state (R134, R137). -/
def HeadState.afterContact (st : HeadState) : Bool := st == .engage || st == .seating

/-- The abort items of a stroke aborted in a head state, its evaluation completed: the record is due
except after SUPERVISOR_RESET (R136, R141). -/
def abortItems (h : Head) (st : HeadState) (c : Claim) (w : WorkingCopy) (k : Stroke) (held : Nat)
    (cause : Cause) (further : List Cause) : AbortItems :=
  { primary := cause
    further := further
    contact := st.afterContact
    due := if cause = .supervisorReset then none
      else some (pressRecord h c w k held .abort (some (cause, further))) }

/-- The head's part of an abort: HALTED, PERMIT inactive, the evaluation completed, the abort items
recorded (R136, steps 1 to 3 and 8). -/
def Monitor.halt (m : Monitor) (h : Head) (c : Claim) (w : WorkingCopy) (k : Stroke) (held : Nat)
    (cause : Cause) (further : List Cause) : Monitor :=
  let k := { k with eval := k.eval.complete w.fields.groups c.restrike }
  { m with
    state := .halted, permit := false
    stroke := some { k with abort := some (abortItems h m.state c w k held cause further) } }

/-- The abort of a head's stroke (R136): the head is HALTED, the outcome applied, the user released,
the tare tracker restarted and ABORTED queued. The head keeps its zones, working copy and slot. -/
def State.abortStroke (s : State) (h : Head) (cause : Cause) (further : List Cause) : Passing :=
  let m := s.monitor h
  match m.claim, m.copy, m.stroke with
  | some c, some w, some k =>
    let f := s.front h
    let s := s.setMonitor h (m.halt h c w k f.heldCount cause further)
    let s := s.changeSite c.site (·.apply (.abort cause m.state.afterContact))
    let p := s.releaseUser w.typeNo
    let s := p.state.setFront h f.restartTare
    { state := s.eventAborted h c.site cause, due := p.due }
  | _, _, _ => { state := s, due := false }

/-! ### The verdict (R100, R154) -/

/-- The verdict of a stroke whose dwell is complete (R100): the record appended, RETRACT, PERMIT
inactive, the outcome applied, the user released, the tracker restarted and VERDICT queued. -/
def State.giveVerdict (s : State) (h : Head) : Passing :=
  let m := s.monitor h
  match m.claim, m.copy, m.stroke with
  | some c, some w, some k =>
    let f := s.front h
    let k := { k with eval := k.eval.complete w.fields.groups c.restrike }
    let failures := k.eval.failures
    let o := if failures.isEmpty then StrokeOutcome.pass else .reject
    let ending := if failures.isEmpty then Ending.pass (k.seatDepth.getD 0) else .reject failures
    let s := s.appendRecord (pressRecord h c w k f.heldCount o none)
    let s := s.setMonitor h { m with state := .retract, permit := false, slot := false, stroke := some k }
    let s := s.changeSite c.site (·.apply ending)
    let p := s.releaseUser w.typeNo
    let s := p.state.setFront h f.restartTare
    { state := s.eventVerdict h c.site o failures, due := p.due }
  | _, _, _ => { state := s, due := false }

/-! ### The sample's work by head state (R93, R138) -/

/-- Steps 3 and 4 of R93: the abort checks, and the verdict where the dwell is complete. -/
def State.concludeSample (s : State) (h : Head) (r : TypeRecord) (restrike : Bool) (p : Progress)
    (rec : SampleRecord) : Passing :=
  match strokeCauses p.state r restrike p.stroke rec with
  | c :: cs => s.abortStroke h c cs
  | [] =>
    if p.state = .seating ∧ p.stroke.dwell = p.stroke.dwellLimit then s.giveVerdict h
    else { state := s, due := false }

/-- The work on a sample completed in a stroke state (R93). -/
def State.strokeSample (s : State) (h : Head) (rec : SampleRecord) : Passing :=
  let m := s.monitor h
  match m.claim, m.copy, m.stroke with
  | some c, some w, some k =>
    let p := (k.countSample rec).progress m.state w.fields c.restrike rec
    let s := s.setMonitor h { m with state := p.state, stroke := some p.stroke }
    let s := if p.contact then s.eventContact h c.site p.stroke else s
    let s := if p.seated then s.eventSeated h c.site p.stroke else s
    s.concludeSample h w.fields c.restrike p rec
  | _, _, _ => { state := s, due := false }

/-- The check of a sample completed in HALTED (R138). -/
def State.haltedSample (s : State) (h : Head) (rec : SampleRecord) : State :=
  match (s.monitor h).copy with
  | some w => s.setMonitor h ((s.monitor h).joinCauses (sampleCauses w.fields rec))
  | none => s

/-- The Stroke Monitor's work on a sample handed to it (R93, R138); in the other head states it does
not act on one (R101). -/
def State.takeSample (s : State) (h : Head) (rec : SampleRecord) : Passing :=
  if (s.monitor h).state.inStroke then s.strokeSample h rec
  else if (s.monitor h).state = .halted then { state := s.haltedSample h rec, due := false }
  else { state := s, due := false }

/-! ### Event causes (R134, R139) -/

/-- An event that aborts a stroke, and joins the further-cause set of a HALTED head (R134, R139). -/
def State.strike (s : State) (h : Head) (c : Cause) : Passing :=
  if (s.monitor h).state.inStroke then s.abortStroke h c []
  else { state := s.setMonitor h ((s.monitor h).joinCauses [c]), due := false }

end Sys2Proof.Machine
end

