-- ==== Sys2Proof/Machine/Timebase.lean ====
section
/-! DEFINITION. The 10 ms timebase and the hold timers that run on it (section 4.6): when an armed claim
expires, what its expiry does, and how the clock moves on without passing over an expiry. -/

namespace Sys2Proof.Machine

/-! ### The end of a hold (R76) -/

/-- The time of a timebase event, µs (R76). -/
def eventTime (event : Nat) : Nat := event * Config.timebase

/-- The end of the hold of a claim granted at a time, µs (R76). -/
def State.holdEnd (s : State) (granted : Nat) : Nat := granted + s.board.holdTime * Config.holdStep

/-- The number of the first timebase event whose time is at or after the end of the hold (R76). -/
def State.expiryEvent (s : State) (granted : Nat) : Nat :=
  (s.holdEnd granted + (Config.timebase - 1)) / Config.timebase

/-- The timebase event at which the hold timer of a head ends its claim; none where the timer does not
run, as in any state other than ARMED (R76). -/
def State.dueEvent (s : State) (h : Head) : Option Nat :=
  match (s.monitor h).state, (s.monitor h).grantTime with
  | .armed, some granted => some (s.expiryEvent granted)
  | _, _ => none

/-! ### The expiry (R77) -/

/-- An armed claim expires (R77): it ends, CLAIM_EXPIRED is queued and the queue is passed. -/
def State.expire (s : State) (h : Head) : State :=
  match (s.monitor h).claim with
  | some c => ((s.endArmed h).eventExpired h c.site).pass none
  | none => (s.endArmed h).pass none

/-- The hold timer of a head at a timebase event: its claim expires where this is the first event at or
after the end of its hold, and at no other (R76). -/
def State.meetTimer (s : State) (h : Head) (event : Nat) : State :=
  if s.dueEvent h = some event then s.expire h else s

/-! ### The passing of time (R76, log 3) -/

/-- A head and the timebase event at which its claim expires. -/
structure Due where
  head : Head
  event : Nat
  deriving DecidableEq, Repr

/-- The earlier of an expiry found so far and that of one more head; of one event, the one found
first (log 3). -/
def State.earlier (s : State) (found : Option Due) (h : Head) : Option Due :=
  match s.dueEvent h, found with
  | some event, some d => if event < d.event then some { head := h, event := event } else some d
  | some event, none => some { head := h, event := event }
  | none, _ => found

/-- The next expiry that the running hold timers bring. -/
def State.nextDue (s : State) : Option Due := allHeads.foldl s.earlier none

/-- The clock brought forward to a time, with no timer looked at. -/
def State.notBefore (s : State) (t : Nat) : State := { s with clock := max s.clock t }

/-- An expiry taken at its own timebase event. -/
def State.expireDue (s : State) (d : Due) : State :=
  (s.notBefore (eventTime d.event)).expire d.head

/-- At most `n` of the expiries due before time `t`, each at its own timebase event, the earliest
first. -/
def State.expireBefore (t : Nat) : Nat → State → State
  | 0, s => s
  | n + 1, s =>
    match s.nextDue with
    | some d => if eventTime d.event < t then State.expireBefore t n (s.expireDue d) else s
    | none => s

/-- A bound on the expiries to come without a new claim: one for each head, and one for each waiting
claim that a pass grants. -/
def State.expiryBound (s : State) : Nat := s.queue.length + allHeads.length

/-- Time moves on to `t`, where it is not there yet. It does not pass over the timebase event at which
a claim expires: each claim due before `t` expires at its own event (R76, R77). A claim whose event is
at `t` is still armed, so START and the expiry may be taken there in either order (R78, section
10.4). -/
def State.advance (s : State) (t : Nat) : State :=
  (State.expireBefore t s.expiryBound s).notBefore t

end Sys2Proof.Machine
end

