-- ==== Sys2Proof/Machine/Layout.lean ====
section
/-! DEFINITION. The layouts of the replies that report state (R104, R174, R176, R178, R179). -/

namespace Sys2Proof.Machine

/-- The byte of a head or "none" (R176). -/
def holderByte : Option Head → List Byte
  | some h => u8 (headNo h)
  | none => u8 255

/-- The noise runs of the corners, two bits each (R176). -/
def noiseRunsByte (cs : PerCorner Corner) : Nat :=
  cs.c0.noiseRun + 4 * cs.c1.noiseRun + 16 * cs.c2.noiseRun + 64 * cs.c3.noiseRun

/-- The sensing values of one head, 36 bytes (R19, R176). -/
def sensingBytes (f : FrontEnd) : List Byte :=
  s32 f.latest.gross ++ s32 f.latest.net ++ s32 f.latest.position
    ++ u8 (packBits (f.latest.corners.toList.map (·.noisy)
        ++ f.latest.corners.toList.map (·.saturated)))
    ++ optField 2 (f.latest.tilt.map tiltBytes)
    ++ u8 (noiseRunsByte f.corners)
    ++ s32 f.tare.value ++ u8 f.tare.state.code
    ++ u8 (packBits [f.homed, f.encoderFault])
    ++ (f.corners.toList.map fun c => u16 c.gain).flatten
    ++ u16 f.noiseLimit ++ u16 f.hysteresis ++ u8 f.stability.code

/-- The configuration of a head, in the order of CONFIGURE_HEAD (R17, R18). -/
def configurationBytes (h : Head) (f : FrontEnd) : List Byte :=
  u8 (headNo h) ++ (f.corners.toList.map fun c => u16 c.gain).flatten
    ++ u16 f.noiseLimit ++ u16 f.hysteresis ++ u8 f.stability.code

/-- A claim: the site, then the restrike flag (R104, R174). -/
def claimBytes (c : Claim) : List Byte := u8 c.site.val ++ flagByte c.restrike

/-- The timebase events to come until a claim granted at `granted` expires, the last of them the
expiry (R76, R104, log 18). -/
def holdTimeLeft (s : State) (granted : Nat) : Nat :=
  s.expiryEvent granted - s.clock / Config.timebase

/-- A head's primary cause, present in HALTED (R104). -/
def primaryCause (m : Monitor) : Option Cause :=
  if m.state = .halted then (m.stroke.bind (·.abort)).map (·.primary) else none

/-- The stroke progress of R104: the stroke sample count, then p_c, the seat depth and the dwell
count as optional fields. R176 names no width for the dwell count: it takes the 4 bytes that R176 gives
the dwell limit count it runs up to (DESIGN CHOICE, log 16). -/
def progressBytes (st : HeadState) (k : Stroke) : List Byte :=
  u32 k.count ++ optField 4 (k.contactPosition.map s32) ++ optField 4 (k.seatDepth.map s32)
    ++ optField 4 (if st = .seating then some (u32 k.dwell) else none)

/-- The fields of STATUS on a head link, in the order of R104 (log 16). -/
def headStatusBytes (s : State) (h : Head) : List Byte :=
  let m := s.monitor h
  u8 m.state.code ++ flagByte (s.permitOut h) ++ flagByte s.estop ++ u8 s.board.state.code
    ++ optField 2 ((s.claimOf h).map claimBytes)
    ++ optField 1 ((s.queuePosition h).map u8)
    ++ listField ((s.zonesHeld h).map fun z => u8 z.val)
    ++ optField 5 (m.copy.map fun w => u8 w.typeNo.val ++ u32 w.fields.partCode.toNat)
    ++ optField 2 (m.grantTime.map fun t => u16 (holdTimeLeft s t))
    ++ optField 19 (m.stroke.map (progressBytes m.state))
    ++ optField 1 ((primaryCause m).map fun c => u8 c.code)
    ++ sensingBytes (s.front h)

/-- One head's part of STATUS on the cell link, 43 bytes (R174). -/
def cellHeadBytes (s : State) (h : Head) : List Byte :=
  let m := s.monitor h
  u8 m.state.code ++ flagByte (s.permitOut h)
    ++ optField 2 ((s.claimOf h).map claimBytes)
    ++ optField 1 ((primaryCause m).map fun c => u8 c.code)
    ++ sensingBytes (s.front h)

/-- An entry of the claim queue (R174). -/
def entryBytes (e : QueueEntry) : List Byte :=
  u8 (headNo e.head) ++ claimBytes e.claim ++ u8 e.bypass

/-- The fields of BOARD_BEGIN's reply: serial, bypass limit, hold time, period code (R43). -/
def boardBytes (s : State) : List Byte :=
  u32 s.board.serial.toNat ++ u8 s.board.bypassLimit ++ u8 s.board.holdTime ++ u8 s.period.code

/-- The fields of STATUS on the cell link, in the order of R174. -/
def cellStatusBytes (s : State) : List Byte :=
  ((s.headLinks.toList ++ [s.cellLink]).map fun k => flagByte k.up).flatten
    ++ flagByte s.estop ++ flagByte s.attn
    ++ u8 s.board.state.code ++ boardBytes s
    ++ (allHeads.map (cellHeadBytes s)).flatten
    ++ (s.zones.toList.map holderByte).flatten
    ++ listField (s.queue.map entryBytes)
    ++ u8 s.records.length ++ u8 s.reserved ++ u8 s.pendingCount

/-- A site's last outcome: its outcome, failure set and primary cause, 0 where the outcome has none
(log 15). -/
def lastOutcomeBytes : LastOutcome → List Byte
  | .pass => u8 StrokeOutcome.pass.code ++ u8 0 ++ u8 0
  | .reject f => u8 StrokeOutcome.reject.code ++ u8 f.code ++ u8 0
  | .abort c => u8 StrokeOutcome.abort.code ++ u8 0 ++ u8 c.code

/-- The seated depth of a site, present in SEATED (R48). -/
def SiteState.depth : SiteState → Option Int
  | .seated d => some d
  | _ => none

/-- The holder head and the state at grant of a site, present in CLAIMED and PRESSING (R48). -/
def SiteState.held : SiteState → Option (Head × GrantFrom)
  | .claimed h g => some (h, g)
  | .pressing h g => some (h, g)
  | _ => none

/-- The fields of READ_SITE's reply, in the order of R48, then the restrike-eligible flag (R54,
log 15). An absent keep-out set, for which R176 gives no full width, is sent as its presence byte and one
byte of 0 in place of the count (DESIGN CHOICE, log 15). -/
def siteBytes (n : Fin 96) (e : Option SiteEntry) : List Byte :=
  u8 n.val ++ u8 (siteCode e)
    ++ optField 1 (e.map fun e => u8 e.typeNo.val)
    ++ optField 4 (e.map fun e => u16 e.x ++ u16 e.y)
    ++ optField 1 (e.map fun e => listField (e.keepOut.map fun z => u8 z.val))
    ++ optField 1 (e.map fun e => u8 e.attempts)
    ++ optField 3 ((e.bind (·.last)).map lastOutcomeBytes)
    ++ optField 4 ((e.bind (·.state.depth)).map s32)
    ++ optField 1 ((e.bind (·.state.held)).map fun p => u8 (headNo p.1))
    ++ optField 1 ((e.bind (·.state.held)).map fun p => u8 p.2.code)
    ++ flagByte (e.any (·.restrikeEligible))

/-- A group entry of the LOAD_TYPE layout (R178). -/
def groupBytes (g : Group) : List Byte :=
  u16 g.entry ++ u16 g.pins ++ u16 g.fmin ++ u16 g.fmax ++ u16 g.settle

/-- A type record in the layout of LOAD_TYPE (R178). -/
def typeBytes (t : Fin 48) (r : TypeRecord) : List Byte :=
  u8 t.val ++ u32 r.partCode.toNat ++ u16 r.pinTotal ++ u16 r.contactThreshold ++ u8 r.confirmCount
    ++ u16 r.approachLimit ++ u8 r.groups.length ++ u16 r.seatStart ++ u16 r.seatSearch
    ++ u16 r.slopeThreshold ++ u8 r.seatWindow ++ u32 r.forceMax ++ u16 r.overtravelMax
    ++ u16 r.dwell ++ u16 r.tiltLimit ++ u32 r.tiltFloor ++ u16 r.stallTime ++ u16 r.strokeLimit
    ++ (r.groups.map groupBytes).flatten

/-- An optional field of a press record at its full width, 0 when absent (R179). -/
def slotField (width : Nat) : Option (List Byte) → List Byte
  | some bytes => bytes
  | none => List.replicate width 0

/-- A group result in a press record, 13 bytes (R179). -/
def resultBytes (g : GroupResult) : List Byte :=
  u8 g.index ++ u8 g.status.code ++ u8 (packBits [g.step.isSome, g.deficit.isSome])
    ++ slotField 4 (g.step.map s32) ++ slotField 4 (g.mean.map s32)
    ++ slotField 2 (g.deficit.map u16)

/-- A press record as TAKE_RECORD sends it (R179). -/
def recordBytes (r : PressRecord) : List Byte :=
  u32 r.serial.toNat ++ u8 r.site.val ++ u8 r.typeNo.val ++ u32 r.partCode.toNat
    ++ u8 (headNo r.head) ++ u8 r.attempt
    ++ u8 (packBits [r.restrike, r.samplesSaturated])
    ++ u8 r.outcome.code
    ++ u8 (packBits [r.failures.isSome, r.firstBandDepth.isSome, r.causes.isSome,
        r.contactPosition.isSome, r.seatDepth.isSome, r.overtravel.isSome, r.peakTilt.isSome,
        r.groups.isSome])
    ++ slotField 1 (r.failures.map fun f => u8 f.code)
    ++ slotField 4 (r.firstBandDepth.map s32)
    ++ slotField 1 (r.causes.map fun c => u8 c.1.code)
    ++ slotField 2 (r.causes.map fun c => u16 (causesCode c.2))
    ++ slotField 4 (r.contactPosition.map s32)
    ++ slotField 4 (r.seatDepth.map s32)
    ++ slotField 4 (r.overtravel.map s32)
    ++ s32 r.peakForce
    ++ slotField 2 (r.peakTilt.map tiltBytes)
    ++ u16 r.samples ++ u8 r.heldCount
    ++ listField ((r.groups.getD []).map resultBytes)

end Sys2Proof.Machine
end

