-- ==== Sys2Proof/Machine/Links.lean ====
section
/-! DEFINITION. The Link Controllers (section 9): the receive assembly and the check of a frame, the
taking of requests, replies, transmission and the break. -/

namespace Sys2Proof.Machine

/-- The reply statuses (section 9.5). -/
inductive Status where
  | ok | clamped | unknownRequest | badLength | badValue | noBoard | boardBusy | badSite | siteState
  | typeAbsent | typeBroken | typeInUse | envelopeInvalid | updatePending | headState | tareUnstable
  | notHomed | forcePresent | claimLost | zoneBusy | typeDraining | noRecordSpace | estopActive
  | queueEmpty
  deriving DecidableEq, Repr

/-- The code of a status (section 9.5); 13 is not in the table. -/
def Status.code : Status → Nat
  | .ok => 0
  | .clamped => 1
  | .unknownRequest => 2
  | .badLength => 3
  | .badValue => 4
  | .noBoard => 5
  | .boardBusy => 6
  | .badSite => 7
  | .siteState => 8
  | .typeAbsent => 9
  | .typeBroken => 10
  | .typeInUse => 11
  | .envelopeInvalid => 12
  | .updatePending => 14
  | .headState => 15
  | .tareUnstable => 16
  | .notHomed => 17
  | .forcePresent => 18
  | .claimLost => 19
  | .zoneBusy => 20
  | .typeDraining => 21
  | .noRecordSpace => 22
  | .estopActive => 23
  | .queueEmpty => 24

/-- A reply: its status, and the fields after the status byte (R172). -/
structure Reply where
  status : Status
  fields : List Byte
  deriving DecidableEq, Repr

/-- A refusal whose rule names no further field (R172). -/
def refuse (st : Status) : Reply := { status := st, fields := [] }

/-- A state after a request's effects, and the reply formed then (R169). -/
structure Answer where
  state : State
  reply : Reply
  deriving DecidableEq, Repr

/-- A request that changes nothing but is answered. -/
def State.answer (s : State) (st : Status) (fields : List Byte) : Answer :=
  { state := s, reply := { status := st, fields := fields } }

/-- A request refused with the status alone, changing nothing. -/
def State.turnDown (s : State) (st : Status) : Answer := { state := s, reply := refuse st }

/-- The kind of a reply: the request's plus 128, or 255 for a kind of 128 or more (R172). -/
def replyKind (kind : Byte) : Byte := if kind.toNat < 128 then kind + 128 else 255

/-- The frame of a reply, its overrun bit clear until it is sent (R171, R172). -/
def replyFrame (kind tag : Byte) (r : Reply) : OutFrame :=
  { kind := replyKind kind, tag := tag, payload := u8 r.status.code ++ r.fields }

/-- A request is taken on a link: its reply takes its place in the output queue, behind every frame
queued before it and ahead of every frame its own effects queue there, and its fields are formed once
those effects have been made (R169). -/
def State.take (s : State) (l : Link) (kind tag : Byte) (f : State → Answer) : State :=
  let place := (s.link l).out.length
  let a := f (s.offer l { kind := replyKind kind, tag := tag, payload := [] })
  let k := a.state.link l
  a.state.setLink l { k with out := k.out.set place (replyFrame kind tag a.reply) }

/-- A valid frame on a link whose kind is a request the link takes (R169): discarded on a DOWN link
(R166), discarded with the overrun flag set where 16 frames wait (R171), and otherwise taken. A
frame is discarded too while RESET is asserted (log 6), and one whose length field would exceed 250
is no valid frame (R164). -/
def State.request (s : State) (l : Link) (kind tag : Byte) (payload : List Byte)
    (f : State → Answer) : State :=
  if s.resetHeld ∨ Config.maxPayload < payload.length ∨ (s.link l).up = false then s
  else if Config.outputSlots ≤ (s.link l).out.length then
    s.setLink l { s.link l with overrun := true }
  else s.take l kind tag f

/-! ### HELLO (R168) -/

/-- A link's number: 0 to 3 for H0 to H3, 4 for the cell link (R168). -/
def linkNo : Link → Nat
  | .head h => headNo h
  | .cell => 4

/-- The reply to HELLO: the link number and the link state before it (R168). -/
def helloReply (l : Link) (wasUp : Bool) : Reply :=
  { status := .ok, fields := u8 (linkNo l) ++ flagByte wasUp }

/-- HELLO on an UP link (R168). -/
def helloAnswer (l : Link) (payload : List Byte) (s : State) : Answer :=
  if payload.length ≠ 0 then s.turnDown .badLength
  else { state := s, reply := helloReply l true }

/-- HELLO with an empty payload on a DOWN link: the link is UP and the reply its first frame
(R168). -/
def State.raiseLink (s : State) (l : Link) (tag : Byte) : State :=
  (s.setLink l { s.link l with up := true }).offer l (replyFrame 1 tag (helloReply l false))

/-- HELLO (R168). -/
def State.hello (s : State) (l : Link) (tag : Byte) (payload : List Byte) : State :=
  if s.resetHeld = false ∧ (s.link l).up = false ∧ payload = [] then s.raiseLink l tag
  else s.request l 1 tag payload (helloAnswer l payload)

/-! ### Received frames (R163, R164) -/

/-- A frame in assembly: its bytes, and whether it is marked bad (R163). -/
structure Assembly where
  bytes : List Byte
  bad : Bool
  deriving DecidableEq, Repr

/-- One character joins the assembly (R163): a stop bit at space marks the frame bad, and so does the
255th character; a bad frame uses nothing more. -/
def Assembly.receive (a : Assembly) (c : RxChar) : Assembly :=
  if a.bad then a
  else if c.stopAtMark = false ∨ Config.assemblyMax ≤ a.bytes.length then { a with bad := true }
  else { a with bytes := a.bytes ++ [c.byte] }

/-- A frame as a request names it: kind, tag and payload. -/
structure Frame where
  kind : Byte
  tag : Byte
  payload : List Byte
  deriving DecidableEq, Repr

/-- The check of a frame that has ended (R164): not bad, at least 4 bytes, a length field of at most
250 that the byte count bears out, and the check byte of R165. -/
def Assembly.frame (a : Assembly) : Option Frame :=
  match a.bytes with
  | kind :: tag :: len :: rest =>
    let payload := rest.take len.toNat
    if a.bad = false ∧ len.toNat ≤ Config.maxPayload ∧ rest.length = len.toNat + 1
        ∧ a.bytes = frameBytes kind tag payload then
      some { kind := kind, tag := tag, payload := payload }
    else none
  | _ => none

/-- The frame that the characters complete on a link, from the assembly the link holds. -/
def LinkState.assemble (k : LinkState) (chars : List RxChar) : Assembly :=
  chars.foldl Assembly.receive { bytes := k.assembly, bad := k.assemblyBad }

/-- The receive assembly is emptied at a frame's end (R163). -/
def State.clearAssembly (s : State) (l : Link) : State :=
  s.setLink l { s.link l with assembly := [], assemblyBad := false }

/-! ### Transmission (R162, R170, R171) -/

/-- The first payload byte of a frame as sent: the overrun flag copied into its most significant bit
(R171, R172). -/
def withOverrun (overrun : Bool) : List Byte → List Byte
  | [] => []
  | st :: rest => (if overrun then st ||| 128 else st) :: rest

/-- The number of bytes of a frame already sent at a time (R162, R170). -/
def TxFrame.sent (t : TxFrame) (clock : Nat) : Nat :=
  min t.bytes.length ((clock - t.since) / Config.charTime)

/-- The oldest frame of a link's queue leaves it and begins transmission now: it takes the overrun flag,
which is cleared (R170, R171). -/
def State.beginFrame (s : State) (l : Link) : State :=
  let k := s.link l
  match k.out with
  | f :: rest =>
    s.setLink l { k with
      out := rest, overrun := false
      tx := some
        { bytes := frameBytes f.kind f.tag (withOverrun k.overrun f.payload), since := s.clock } }
  | [] => s

/-- A frame of a link begins transmission where one waits and the line is free. Its start shows that
the idle gap since the last frame has passed (R162, log 4), and the claims due before then have
expired (R76). -/
def State.startFrame (s : State) (l : Link) : State :=
  let k := s.link l
  match k.tx, k.out with
  | none, _ :: _ => (s.advance (k.idleSince + Config.idleGap)).beginFrame l
  | _, _ => s

/-- The transmit line of a link is at mark from now on (R162). -/
def State.freeLine (s : State) (l : Link) : State :=
  s.setLink l { s.link l with tx := none, idleSince := s.clock }

/-- The last byte of the frame in transmission leaves the line, (n + 4) × 10 µs after its start
(R170, log 4), and the idle gap begins; the claims due before then have expired (R76). -/
def State.endFrame (s : State) (l : Link) : State :=
  match (s.link l).tx with
  | some t => (s.advance (t.since + t.bytes.length * Config.charTime)).freeLine l
  | none => s

/-- An UP link goes DOWN at a break: assembly, output queue and frame in transmission discarded, the
overrun flag cleared, the transmit line at mark (R167). -/
def State.dropLink (s : State) (l : Link) : State :=
  s.setLink l
    { up := false, assembly := [], assemblyBad := false, out := [], tx := none, overrun := false
      idleSince := match (s.link l).tx with
        | some _ => s.clock
        | none => (s.link l).idleSince }

end Sys2Proof.Machine
end

