-- ==== Sys2Proof/Machine/HeadRequests.lean ====
section
/-! DEFINITION. The requests of the head links (sections 4, 5, 7 and 9): HELLO, STATUS, HOME, CLAIM,
RELEASE, START, STOP, RETRACTED and HALT_ACK. Each takes its effects and forms its reply on the state
in which it is taken. -/

namespace Sys2Proof.Machine

/-- The outcome of a command. -/
abbrev Outcome := Host.Outcome State Fault Refusal

/-- HELLO (R168). -/
def execHello (l : Link) (tag : Byte) (payload : List Byte) (s : State) : Outcome :=
  .next (s.hello l tag payload)

/-! ### STATUS (R104) and HOME (R103) -/

/-- STATUS on a head link: answered in every head state, changing nothing (R104). -/
def statusAnswer (h : Head) (payload : List Byte) (s : State) : Answer :=
  if payload.length ≠ 0 then s.turnDown .badLength else s.answer .ok (headStatusBytes s h)

/-- STATUS. -/
def execStatus (h : Head) (tag : Byte) (payload : List Byte) (s : State) : Outcome :=
  .next (s.request (.head h) 2 tag payload (statusAnswer h payload))

/-- HOME: taken in IDLE and WAITING (R103). -/
def homeAnswer (h : Head) (payload : List Byte) (s : State) : Answer :=
  if payload.length ≠ 0 then s.turnDown .badLength
  else if (s.monitor h).state = .idle ∨ (s.monitor h).state = .waiting then
    (s.setFront h (s.front h).home).answer .ok (s32 0)
  else s.turnDown .headState

/-- HOME. -/
def execHome (h : Head) (tag : Byte) (payload : List Byte) (s : State) : Outcome :=
  .next (s.request (.head h) 16 tag payload (homeAnswer h payload))

/-! ### CLAIM (R66 to R68) -/

/-- A new entry at the young end of the claim queue, with a bypass count of 0 (R67, R68). -/
def State.joinQueue (s : State) (h : Head) (c : Claim) : State :=
  { s with queue := s.queue ++ [{ head := h, claim := c, bypass := 0 }] }

/-- The OK reply to CLAIM: the site, the head state after the pass, and the position in the queue of
a head still WAITING (R67, log 17). -/
def claimReply (s : State) (h : Head) (n : Fin 96) : Reply :=
  { status := .ok
    fields := u8 n.val ++ u8 (s.monitor h).state.code ++ optField 1 ((s.queuePosition h).map u8) }

/-- A claim that asks to wait (R67). -/
def State.claimWaiting (s : State) (h : Head) (c : Claim) : Answer :=
  let s := (s.joinQueue h c).setMonitor h { s.monitor h with state := .waiting }
  let s := s.pass none
  { state := s, reply := claimReply s h c.site }

/-- The first missing condition of a no-wait claim its own pass did not grant (R68): where the pass
dropped its entry, SITE_STATE for SITE_CHANGED and TYPE_BROKEN for TYPE_BROKEN. -/
def State.missing (s : State) (h : Head) (c : Claim) : Status :=
  match s.entryOf h with
  | none => if s.meets c then .typeBroken else .siteState
  | some e =>
    if s.typeStateAt c.site = some .draining then .typeDraining
    else if s.zonesFree c.site = false ∨ s.blocked e then .zoneBusy
    else if s.slotFree = false then .noRecordSpace
    else .typeBroken

/-- A claim that asks not to wait (R68). -/
def State.claimAtOnce (s : State) (h : Head) (c : Claim) : Answer :=
  let s := (s.joinQueue h c).pass (some h)
  if (s.monitor h).state = .armed then { state := s, reply := claimReply s h c.site }
  else { state := s.leaveQueue h, reply := refuse (s.missing h c) }

/-- The checks of CLAIM that follow the board's and the head's, on a claim for a site (R66, checks 7
and 8), and the claim taken. -/
def State.claimSite (s : State) (h : Head) (wait : Bool) (c : Claim) : Answer :=
  if s.meets c = false then s.turnDown .siteState
  else if s.typeStateAt c.site = some .broken then s.turnDown .typeBroken
  else if wait then s.claimWaiting h c
  else s.claimAtOnce h c

/-- CLAIM (R66). -/
def claimAnswer (h : Head) (payload : List Byte) (s : State) : Answer :=
  if payload.length ≠ 3 then s.turnDown .badLength
  else if 1 < at8 payload 1 ∨ 1 < at8 payload 2 then s.turnDown .badValue
  else if s.board.state = .noBoard then s.turnDown .noBoard
  else if s.board.state = .aborting then s.turnDown .boardBusy
  else if s.estop then s.turnDown .estopActive
  else if (s.monitor h).state ≠ .idle then s.turnDown .headState
  else
    match siteOf (at8 payload 0) with
    | none => s.turnDown .badSite
    | some n => s.claimSite h (at8 payload 1 == 1) { site := n, restrike := at8 payload 2 == 1 }

/-- CLAIM. -/
def execClaim (h : Head) (tag : Byte) (payload : List Byte) (s : State) : Outcome :=
  .next (s.request (.head h) 17 tag payload (claimAnswer h payload))

/-! ### RELEASE (R79) -/

/-- RELEASE, by the head's state (R79). -/
def releaseAnswer (h : Head) (payload : List Byte) (s : State) : Answer :=
  if payload.length ≠ 0 then s.turnDown .badLength
  else
    match (s.monitor h).state with
    | .waiting =>
      ((((s.leaveQueue h).toIdle h).pass none)).answer .ok (u8 HeadState.waiting.code)
    | .armed => ((s.endArmed h).pass none).answer .ok (u8 HeadState.armed.code)
    | .idle => s.turnDown .claimLost
    | _ => s.turnDown .headState

/-- RELEASE. -/
def execRelease (h : Head) (tag : Byte) (payload : List Byte) (s : State) : Outcome :=
  .next (s.request (.head h) 18 tag payload (releaseAnswer h payload))

/-! ### START (R90, R91) -/

/-- The effects of an accepted START (R91). -/
def State.startStroke (s : State) (h : Head) (c : Claim) (w : WorkingCopy) : State :=
  let attempts := ((s.site c.site).map (·.attempts)).getD 0
  let k := Stroke.begin w.fields s.period s.board.serial attempts (s.front h)
  let m := s.monitor h
  let s := s.changeSite c.site SiteEntry.press
  let s := s.setFront h { s.front h with heldCount := 0 }
  s.setMonitor h { m with state := .approach, permit := true, grantTime := none, stroke := some k }

/-- The reply to an accepted START: site, restrike flag, start position and the three limit counts
(R91). -/
def startReply (c : Claim) (k : Stroke) : Reply :=
  { status := .ok
    fields := u8 c.site.val ++ flagByte c.restrike ++ s32 k.startPosition ++ u32 k.strokeLimit
      ++ u32 k.stallLimit ++ u32 k.dwellLimit }

/-- A START refused: the reply carries the head state (R90, log 24). -/
def State.refuseStart (s : State) (h : Head) (st : Status) : Answer :=
  s.answer st (u8 (s.monitor h).state.code)

/-- The FORCE_PRESENT check: twice the net force of the latest sample record is at least the contact
threshold (R90). -/
def forcePresent (f : FrontEnd) (r : TypeRecord) : Bool :=
  decide ((r.contactThreshold : Int) ≤ 2 * f.latest.net)

/-- START accepted (R91). -/
def State.acceptStart (s : State) (h : Head) (c : Claim) (w : WorkingCopy) : Answer :=
  let s := s.startStroke h c w
  match (s.monitor h).stroke with
  | some k => { state := s, reply := startReply c k }
  | none => { state := s, reply := refuse .claimLost }

/-- Checks 3 to 5 of R90, on an armed head. -/
def State.startArmed (s : State) (h : Head) : Answer :=
  let f := s.front h
  match (s.monitor h).claim, (s.monitor h).copy with
  | some c, some w =>
    if f.homed = false ∨ f.encoderFault then s.refuseStart h .notHomed
    else if f.tare.state ≠ .stable then s.refuseStart h .tareUnstable
    else if forcePresent f w.fields then
      s.answer .forcePresent (u8 (s.monitor h).state.code ++ s32 f.latest.net)
    else s.acceptStart h c w
  | _, _ => s.refuseStart h .claimLost

/-- START (R90). -/
def startAnswer (h : Head) (payload : List Byte) (s : State) : Answer :=
  if payload.length ≠ 0 then s.refuseStart h .badLength
  else
    match (s.monitor h).state with
    | .idle => s.refuseStart h .claimLost
    | .armed => s.startArmed h
    | _ => s.refuseStart h .headState

/-- START. -/
def execStart (h : Head) (tag : Byte) (payload : List Byte) (s : State) : Outcome :=
  .next (s.request (.head h) 19 tag payload (startAnswer h payload))

/-! ### STOP (R102), RETRACTED (R101) and HALT_ACK (R140) -/

/-- STOP in a stroke state aborts the stroke with HEAD_STOP (R102). -/
def stopAnswer (h : Head) (payload : List Byte) (s : State) : Answer :=
  if payload.length ≠ 0 then s.turnDown .badLength
  else if (s.monitor h).state.inStroke then
    (s.abortStroke h .headStop []).run.answer .ok (u8 HeadState.halted.code)
  else s.turnDown .headState

/-- STOP. -/
def execStop (h : Head) (tag : Byte) (payload : List Byte) (s : State) : Outcome :=
  .next (s.request (.head h) 20 tag payload (stopAnswer h payload))

/-- A head leaves RETRACT or HALTED: its zones are freed, it is IDLE, the queue is passed, and the
board closes where it was the last of an ABORTING board (R46, R84, R101, R140). -/
def State.leaveStroke (s : State) (h : Head) : State :=
  (((s.freeZones h).toIdle h).pass none).closeIfAborted

/-- RETRACTED (R101). -/
def retractedAnswer (h : Head) (payload : List Byte) (s : State) : Answer :=
  if payload.length ≠ 0 then s.turnDown .badLength
  else if (s.monitor h).state = .retract then
    (s.leaveStroke h).answer .ok (u8 (s.zonesHeld h).length)
  else s.turnDown .headState

/-- RETRACTED. -/
def execRetracted (h : Head) (tag : Byte) (payload : List Byte) (s : State) : Outcome :=
  .next (s.request (.head h) 21 tag payload (retractedAnswer h payload))

/-- The record due from an abort, its further-cause set taken as it stands (R140, R141). -/
def AbortItems.record (a : AbortItems) : Option PressRecord :=
  a.due.map fun r => { r with causes := some (a.primary, a.further) }

/-- The record due is appended, if there is one (R155). -/
def State.appendDue (s : State) (r : Option PressRecord) : State :=
  match r with
  | some r => s.appendRecord r
  | none => s

/-- HALT_ACK of a halted head (R140). -/
def State.acknowledge (s : State) (h : Head) (a : AbortItems) : Answer :=
  ((s.appendDue a.record).leaveStroke h).answer .ok
    (u8 a.primary.code ++ u8 (s.zonesHeld h).length ++ flagByte a.record.isSome)

/-- HALT_ACK (R140). -/
def haltAckAnswer (h : Head) (payload : List Byte) (s : State) : Answer :=
  if payload.length ≠ 0 then s.turnDown .badLength
  else
    match (s.monitor h).state, (s.monitor h).stroke.bind (·.abort) with
    | .halted, some a => s.acknowledge h a
    | _, _ => s.turnDown .headState

/-- HALT_ACK. -/
def execHaltAck (h : Head) (tag : Byte) (payload : List Byte) (s : State) : Outcome :=
  .next (s.request (.head h) 22 tag payload (haltAckAnswer h payload))

end Sys2Proof.Machine
end

