-- ==== Sys2Proof/Machine/CellRequests.lean ====
section
/-! DEFINITION. The requests of the cell link (sections 1, 2, 3, 8 and 9). -/

namespace Sys2Proof.Machine

/-! ### STATUS on the cell link (R174) -/

/-- STATUS on the cell link (R174). -/
def cellStatusAnswer (payload : List Byte) (s : State) : Answer :=
  if payload.length ≠ 0 then s.turnDown .badLength else s.answer .ok (cellStatusBytes s)

/-- STATUS on the cell link. -/
def execCellStatus (tag : Byte) (payload : List Byte) (s : State) : Outcome :=
  .next (s.request .cell 2 tag payload (cellStatusAnswer payload))

/-! ### CONFIGURE_HEAD (R17, R18) -/

/-- The gains CONFIGURE_HEAD carries (R17). -/
def gainsOf (p : List Byte) : PerCorner Nat := ⟨at16 p 1, at16 p 3, at16 p 5, at16 p 7⟩

/-- A value of CONFIGURE_HEAD is brought into range: a gain of 0, or a hysteresis above 2,000
(R18). -/
def configurationClamped (p : List Byte) : Bool :=
  (gainsOf p).toList.any (· == 0) || decide (2000 < at16 p 11)

/-- The status of a request taken: CLAMPED where a value was brought into range (R18, R43). -/
def takenStatus (clamped : Bool) : Status := if clamped then .clamped else .ok

/-- CONFIGURE_HEAD taken for a head (R18). -/
def State.configure (s : State) (h : Head) (stability : StabilityTime) (p : List Byte) : Answer :=
  let f := (s.front h).configure (gainsOf p) (at16 p 9) (at16 p 11) stability
  (s.setFront h f).answer (takenStatus (configurationClamped p)) (configurationBytes h f)

/-- CONFIGURE_HEAD (R17). -/
def configureHeadAnswer (payload : List Byte) (s : State) : Answer :=
  if payload.length ≠ 14 then s.turnDown .badLength
  else
    match headOf (at8 payload 0), stabilityOf (at8 payload 13) with
    | some h, some stability =>
      if (s.monitor h).state ≠ .idle then s.turnDown .headState else s.configure h stability payload
    | _, _ => s.turnDown .badValue

/-- CONFIGURE_HEAD. -/
def execConfigureHead (tag : Byte) (payload : List Byte) (s : State) : Outcome :=
  .next (s.request .cell 32 tag payload (configureHeadAnswer payload))

/-! ### BOARD_BEGIN, BOARD_END and BOARD_ABORT (R43 to R45) -/

/-- The sample period in force from now on; a new one restarts every tare tracker (R2). -/
def State.setPeriod (s : State) (p : Period) : State :=
  if p = s.period then s
  else { s with period := p, fronts := s.fronts.map FrontEnd.restartTare }

/-- A board opened (R43). -/
def State.openBoard (s : State) (serial : BitVec 32) (bypass hold : Nat) (p : Period) : State :=
  { s.setPeriod p with
    board :=
      { state := .isOpen, serial := serial, bypassLimit := min bypass 15, holdTime := max hold 1 }
    sites := Vector.replicate 96 none }

/-- BOARD_BEGIN (R43). -/
def boardBeginAnswer (payload : List Byte) (s : State) : Answer :=
  if payload.length ≠ 7 then s.turnDown .badLength
  else
    match periodOf (at8 payload 6) with
    | none => s.turnDown .badValue
    | some p =>
      if s.board.state ≠ .noBoard ∨ s.someUnacknowledged then s.turnDown .boardBusy
      else
        let bypass := at8 payload 4
        let hold := at8 payload 5
        let s := s.openBoard (BitVec.ofNat 32 (at32 payload 0)) bypass hold p
        s.answer (takenStatus (decide (15 < bypass ∨ hold = 0))) (boardBytes s)

/-- BOARD_BEGIN. -/
def execBoardBegin (tag : Byte) (payload : List Byte) (s : State) : Outcome :=
  .next (s.request .cell 33 tag payload (boardBeginAnswer payload))

/-- A head state with which BOARD_END is answered BOARD_BUSY (R44). -/
def HeadState.holdsBoard (st : HeadState) : Bool :=
  st == .armed || st.inStroke || st.unacknowledged

/-- A site's state is SEATED. -/
def SiteState.isSeated : SiteState → Bool
  | .seated _ => true
  | _ => false

/-- The summary of BOARD_END (R44). -/
def summaryBytes (s : State) : List Byte :=
  u32 s.board.serial.toNat
    ++ u8 (s.countSites fun _ => true)
    ++ u8 (s.countSites (·.state == .empty))
    ++ u8 (s.countSites (·.state == .loaded))
    ++ u8 (s.countSites (·.state.isSeated))
    ++ u8 (s.countSites (·.state == .rejected))
    ++ u8 (s.countSites (·.state == .lockedOut))

/-- BOARD_END (R44). -/
def boardEndAnswer (payload : List Byte) (s : State) : Answer :=
  if payload.length ≠ 0 then s.turnDown .badLength
  else if s.board.state = .noBoard then s.turnDown .noBoard
  else if s.board.state = .aborting then s.turnDown .boardBusy
  else if s.monitors.toList.any (·.state.holdsBoard) then s.turnDown .boardBusy
  else
    let s := s.dropAll none .boardClosed s.queue
    s.closeBoard.answer .ok (summaryBytes s)

/-- BOARD_END. -/
def execBoardEnd (tag : Byte) (payload : List Byte) (s : State) : Outcome :=
  .next (s.request .cell 34 tag payload (boardEndAnswer payload))

/-- One head under an event that ends every claim and stroke: an armed claim is revoked, a stroke
aborted, and the cause joins a HALTED head's further-cause set (R83, R139, R142, R144). -/
def State.endHead (s : State) (r : ClaimReason) (c : Cause) (h : Head) : State :=
  if (s.monitor h).state = .armed then s.revoke h r else (s.strike h c).state

/-- Every claim and stroke ends: the waiting claims are dropped, then each head's armed claim or
stroke ends (R45, R83, log 19). No pass is made, the queue being empty (R81). -/
def State.endEverything (s : State) (r : ClaimReason) (c : Cause) : State :=
  allHeads.foldl (fun s h => s.endHead r c h) (s.dropAll none r s.queue)

/-- BOARD_ABORT taken in OPEN (R45, R144). -/
def State.abortBoard (s : State) : State :=
  (({ s with board := { s.board with state := .aborting } }).endEverything .boardAbort
    .boardAbort).closeIfAborted

/-- BOARD_ABORT (R45). -/
def boardAbortAnswer (payload : List Byte) (s : State) : Answer :=
  if payload.length ≠ 0 then s.turnDown .badLength
  else
    match s.board.state with
    | .noBoard => s.turnDown .noBoard
    | .aborting => s.answer .ok (u8 BoardState.aborting.code)
    | .isOpen => let s := s.abortBoard; s.answer .ok (u8 s.board.state.code)

/-- BOARD_ABORT. -/
def execBoardAbort (tag : Byte) (payload : List Byte) (s : State) : Outcome :=
  .next (s.request .cell 35 tag payload (boardAbortAnswer payload))

/-! ### SITE_DEFINE, LOAD, UNLOAD and READ_SITE (R50 to R54) -/

/-- A request on a site of an OPEN board: NO_BOARD, BOARD_BUSY and BAD_SITE are answered first
(R50 to R52). -/
def State.onOpenSite (s : State) (n : Nat) (f : Fin 96 → Answer) : Answer :=
  match s.board.state with
  | .noBoard => s.turnDown .noBoard
  | .aborting => s.turnDown .boardBusy
  | .isOpen =>
    match siteOf n with
    | none => s.turnDown .badSite
    | some n => f n

/-- A site is UNDEFINED or EMPTY (R50). -/
def State.definable (s : State) (n : Fin 96) : Bool :=
  match s.site n with
  | none => true
  | some e => e.state == .empty

/-- The site SITE_DEFINE makes (R50). -/
def definedSite (t : Fin 48) (x y : Nat) (zs : List (Fin 32)) : SiteEntry :=
  { typeNo := t, x := x, y := y, keepOut := keepOutOf zs, state := .empty, attempts := 0
    last := none }

/-- The zone numbers SITE_DEFINE carries (R50). -/
def zoneNumbers (payload : List Byte) : List Nat := (payload.drop 7).map (·.toNat)

/-- Checks 6 to 8 of R50, and the site defined. -/
def State.defineSite (s : State) (payload : List Byte) (n : Fin 96) : Answer :=
  match typeOf (at8 payload 1), zonesOf (zoneNumbers payload) with
  | some t, some zs =>
    if distinct (zoneNumbers payload) = false then s.turnDown .badValue
    else if (s.typeSlot t).state = .absent then s.turnDown .typeAbsent
    else if s.definable n = false then s.turnDown .siteState
    else
      (s.setSite n (some (definedSite t (at16 payload 2) (at16 payload 4) zs))).answer .ok
        (u8 n.val ++ u8 SiteState.empty.code ++ u8 (s.typeSlot t).state.code)
  | _, _ => s.turnDown .badValue

/-- SITE_DEFINE (R50). -/
def siteDefineAnswer (payload : List Byte) (s : State) : Answer :=
  if payload.length < 7 then s.turnDown .badLength
  else if at8 payload 6 < 1 ∨ 6 < at8 payload 6 then s.turnDown .badValue
  else if payload.length ≠ 7 + at8 payload 6 then s.turnDown .badLength
  else s.onOpenSite (at8 payload 0) (s.defineSite payload)

/-- SITE_DEFINE. -/
def execSiteDefine (tag : Byte) (payload : List Byte) (s : State) : Outcome :=
  .next (s.request .cell 36 tag payload (siteDefineAnswer payload))

/-- LOAD of a site (R51). -/
def State.loadSite (s : State) (n : Fin 96) : Answer :=
  match s.site n with
  | none => s.turnDown .siteState
  | some e =>
    if e.state = .empty then
      (s.setSite n (some { e with state := .loaded })).answer .ok
        (u8 n.val ++ u8 SiteState.loaded.code)
    else s.turnDown .siteState

/-- LOAD (R51). -/
def loadAnswer (payload : List Byte) (s : State) : Answer :=
  if payload.length ≠ 1 then s.turnDown .badLength
  else s.onOpenSite (at8 payload 0) s.loadSite

/-- LOAD. -/
def execLoad (tag : Byte) (payload : List Byte) (s : State) : Outcome :=
  .next (s.request .cell 37 tag payload (loadAnswer payload))

/-- The head whose armed claim UNLOAD revokes: the holder of a CLAIMED site (R52). -/
def SiteState.claimant : SiteState → Option Head
  | .claimed h _ => some h
  | _ => none

/-- A site state from which UNLOAD is taken (R52). -/
def SiteState.unloadable : SiteState → Bool
  | .empty => false
  | .pressing _ _ => false
  | _ => true

/-- The claims UNLOAD ends: the holder's armed claim and the waiting claims for the site, with
SITE_CHANGED; an end of a claim brings a pass (R52, R71). -/
def State.endSiteClaims (s : State) (n : Fin 96) (claimant : Option Head) : State :=
  let revoked := match claimant with
    | some h => s.revoke h .siteChanged
    | none => s
  let waiting := revoked.waitingOnSite n
  let dropped := revoked.dropAll none .siteChanged waiting
  if claimant.isSome ∨ waiting ≠ [] then dropped.pass none else dropped

/-- UNLOAD of a site (R52). -/
def State.unloadSite (s : State) (n : Fin 96) : Answer :=
  match s.site n with
  | none => s.turnDown .siteState
  | some e =>
    if e.state.unloadable then
      ((s.setSite n (some e.unload)).endSiteClaims n e.state.claimant).answer .ok
        (u8 n.val ++ u8 SiteState.empty.code ++ flagByte e.state.claimant.isSome)
    else s.turnDown .siteState

/-- UNLOAD (R52). -/
def unloadAnswer (payload : List Byte) (s : State) : Answer :=
  if payload.length ≠ 1 then s.turnDown .badLength
  else s.onOpenSite (at8 payload 0) s.unloadSite

/-- UNLOAD. -/
def execUnload (tag : Byte) (payload : List Byte) (s : State) : Outcome :=
  .next (s.request .cell 38 tag payload (unloadAnswer payload))

/-- READ_SITE (R54). -/
def readSiteAnswer (payload : List Byte) (s : State) : Answer :=
  if payload.length ≠ 1 then s.turnDown .badLength
  else if s.board.state = .noBoard then s.turnDown .noBoard
  else
    match siteOf (at8 payload 0) with
    | none => s.turnDown .badSite
    | some n => s.answer .ok (siteBytes n (s.site n))

/-- READ_SITE. -/
def execReadSite (tag : Byte) (payload : List Byte) (s : State) : Outcome :=
  .next (s.request .cell 39 tag payload (readSiteAnswer payload))

/-! ### LOAD_TYPE, PURGE_TYPE and READ_TYPE (R23, R37, R38) -/

/-- A record placed in a type's slot; a READY result is reported to the Arbiter, which passes its
queue (R25). -/
def State.placeRecord (s : State) (t : Fin 48) (r : TypeRecord) : State :=
  let slot := (s.typeSlot t).place r
  let s := s.setType t slot
  if slot.state = .ready then s.pass none else s

/-- LOAD_TYPE of a well-formed payload: the record checks, and the record placed (R23, checks 5 and
6). -/
def State.loadRecord (s : State) (t : Fin 48) (r : TypeRecord) : Answer :=
  match firstFailure r with
  | some f => s.answer .envelopeInvalid (u8 f.check ++ u8 f.group)
  | none =>
    let s := s.placeRecord t r
    s.answer .ok
      (u8 t.val ++ u8 (s.typeSlot t).state.code ++ u8 (s.typeSlot t).users ++ u8 s.pendingCount)

/-- LOAD_TYPE (R23). -/
def loadTypeAnswer (payload : List Byte) (s : State) : Answer :=
  if payload.length < 38 then s.turnDown .badLength
  else
    match typeOf (at8 payload 0) with
    | none => s.turnDown .badValue
    | some t =>
      if at8 payload 12 < 1 ∨ 8 < at8 payload 12 then s.answer .envelopeInvalid (u8 1 ++ u8 0)
      else if payload.length ≠ 38 + 10 * at8 payload 12 then s.turnDown .badLength
      else s.loadRecord t (recordOf payload)

/-- LOAD_TYPE. -/
def execLoadType (tag : Byte) (payload : List Byte) (s : State) : Outcome :=
  .next (s.request .cell 40 tag payload (loadTypeAnswer payload))

/-- A request on a type that is not ABSENT: BAD_LENGTH, BAD_VALUE and TYPE_ABSENT are answered first
(R37, R38). -/
def State.onType (s : State) (payload : List Byte) (f : Fin 48 → Answer) : Answer :=
  if payload.length ≠ 1 then s.turnDown .badLength
  else
    match typeOf (at8 payload 0) with
    | none => s.turnDown .badValue
    | some t => if (s.typeSlot t).state = .absent then s.turnDown .typeAbsent else f t

/-- PURGE_TYPE of a type that is not ABSENT (R37). -/
def State.purge (s : State) (t : Fin 48) : Answer :=
  if (s.typeSlot t).state = .draining then s.turnDown .updatePending
  else if s.typeNamed t then s.turnDown .typeInUse
  else (s.setType t .reset).answer .ok (u8 t.val)

/-- PURGE_TYPE (R37). -/
def purgeTypeAnswer (payload : List Byte) (s : State) : Answer := s.onType payload s.purge

/-- PURGE_TYPE. -/
def execPurgeType (tag : Byte) (payload : List Byte) (s : State) : Outcome :=
  .next (s.request .cell 41 tag payload (purgeTypeAnswer payload))

/-- What READ_TYPE reports of a slot: type number, state, user count and correctable-fault count
(R38). -/
def slotBytes (t : Fin 48) (slot : TypeSlot) : List Byte :=
  u8 t.val ++ u8 slot.state.code ++ u8 slot.users ++ u8 slot.faults

/-- The OK reply to READ_TYPE (R38). -/
def State.reportType (s : State) (t : Fin 48) (r : TypeRecord) : Answer :=
  s.answer .ok
    (slotBytes t (s.typeSlot t) ++ flagByte (s.typeSlot t).waiting.isSome ++ typeBytes t r)

/-- A type found BROKEN by a READ_TYPE: the slot as the read left it, the waiting claims dropped,
and a pass where one was dropped (R34, R35, R71). -/
def State.foundBroken (s : State) (t : Fin 48) (slot : TypeSlot) : Answer :=
  let s := s.setType t { slot with state := .broken }
  let s := Passing.run
    { state := s.dropBroken none t, due := !(s.waitingOnType t).isEmpty }
  { state := s, reply := refuse .typeBroken }

/-- READ_TYPE of a DRAINING type whose active record is damaged: the pending record is read, and
written over it where it is sound (R35). -/
def State.readDraining (s : State) (t : Fin 48) : Answer :=
  let slot := (s.typeSlot t).reread.repair
  match slot.state, slot.active with
  | .draining, some r => (s.setType t slot).reportType t r.fields
  | _, _ => s.foundBroken t slot

/-- READ_TYPE of a type that is not ABSENT (R38). -/
def State.readType (s : State) (t : Fin 48) : Answer :=
  let slot := s.typeSlot t
  if slot.state = .broken then s.answer .typeBroken (slotBytes t slot)
  else
    match slot.read with
    | some r => (s.setType t slot.reread).reportType t r
    | none => if slot.state = .draining then s.readDraining t else s.foundBroken t slot.reread

/-- READ_TYPE (R38). -/
def readTypeAnswer (payload : List Byte) (s : State) : Answer := s.onType payload s.readType

/-- READ_TYPE. -/
def execReadType (tag : Byte) (payload : List Byte) (s : State) : Outcome :=
  .next (s.request .cell 42 tag payload (readTypeAnswer payload))

/-! ### TAKE_RECORD (R157) -/

/-- TAKE_RECORD (R157). -/
def takeRecordAnswer (payload : List Byte) (s : State) : Answer :=
  if payload.length ≠ 0 then s.turnDown .badLength
  else
    match s.records with
    | [] => s.answer .queueEmpty (u8 0 ++ u8 s.reserved)
    | r :: rest =>
      (({ s with records := rest }).pass none).answer .ok (recordBytes r ++ u8 rest.length)

/-- TAKE_RECORD. -/
def execTakeRecord (tag : Byte) (payload : List Byte) (s : State) : Outcome :=
  .next (s.request .cell 43 tag payload (takeRecordAnswer payload))

/-! ### WARM_RESET (R175) -/

/-- A type's slot after a warm reset: no users, and a DRAINING type's pending record installed
(R41). -/
def TypeSlot.warmReset (slot : TypeSlot) : TypeSlot :=
  let slot' := { slot with users := 0 }
  if slot.state = .draining then slot'.install else slot'

/-- One head under a warm reset: an armed claim is revoked and a stroke aborted, with
SUPERVISOR_RESET; RETRACT and HALTED stay (R86, R108, R145, R146). -/
def State.resetHead (s : State) (h : Head) : State :=
  if (s.monitor h).state = .armed then s.revoke h .supervisorReset
  else if (s.monitor h).state.inStroke then (s.abortStroke h .supervisorReset []).state
  else s

/-- The library's part of a warm reset (R41). -/
def State.resetLibrary (s : State) : State :=
  { s with library := Vector.ofFn fun t => (s.typeSlot t).warmReset }

/-- What a warm reset clears last: every zone is free, the front ends' runs and counts are 0, no head
has a reservation and no record is held (R21, R86, R146, R161). -/
def State.clearSession (s : State) : State :=
  { s with
    zones := Vector.replicate 32 none
    fronts := s.fronts.map FrontEnd.warmReset
    monitors := s.monitors.map fun m => { m with slot := false }
    records := [] }

/-- The effects of a warm reset in every block (R175): claims dropped, the library's users cleared
and its pending records installed, the board closed, claims revoked and strokes aborted, and what
clearSession clears (log 19). -/
def State.warmReset (s : State) : State :=
  (allHeads.foldl State.resetHead
    (s.dropAll none .supervisorReset s.queue).resetLibrary.closeBoard).clearSession

/-- WARM_RESET (R175): the reply carries the number of records discarded, and of heads left in HALTED
or RETRACT. -/
def warmResetAnswer (payload : List Byte) (s : State) : Answer :=
  if payload.length ≠ 0 then s.turnDown .badLength
  else
    s.warmReset.answer .ok
      (u8 s.records.length ++ u8 (s.warmReset.monitors.toList.countP (·.state.unacknowledged)))

/-- WARM_RESET. -/
def execWarmReset (tag : Byte) (payload : List Byte) (s : State) : Outcome :=
  .next (s.request .cell 44 tag payload (warmResetAnswer payload))

end Sys2Proof.Machine
end

