-- ==== Sys2Proof/Machine/PartEvents.lean ====
section
/-! DEFINITION. The events of the part itself: samples, the encoders, the timebase, the ESTOP and
RESET inputs, and the library memory. -/

namespace Sys2Proof.Machine

/-! ### SAMPLE_COMPLETE (R1, R13, R93) -/

/-- A sample of a head completes: the record is formed and kept, the tracker steps, and the Stroke
Monitor takes the record (R1, R13, R14, R93, R138); a type that became READY brings a pass (R71). -/
def State.completeSample (s : State) (h : Head) (conv : PerCorner Conversions) : State :=
  let f := s.front h
  let m := s.monitor h
  let sample := sampleRecord h f m conv
  ((s.setFront h (f.complete s.period m.state conv sample)).takeSample h sample).run

/-- SAMPLE_COMPLETE: no sample completes while RESET is asserted (R20). -/
def execSampleComplete (h : Head) (conv : PerCorner Conversions) (s : State) : Outcome :=
  .next (if s.resetHeld then s else s.completeSample h conv)

/-! ### ENCODER_TRANSITION (R10, R11) -/

/-- ENCODER_TRANSITION: no transition is counted while RESET is asserted (R20). -/
def execEncoderTransition (h : Head) (seen : Phase) (s : State) : Outcome :=
  .next (if s.resetHeld then s else s.setFront h ((s.front h).observe seen))

/-! ### HOLD_TIMER_EXPIRY (R76, R77) -/

/-- HOLD_TIMER_EXPIRY: time comes to the timebase event, and the event meets the hold timer of the head
(R76, log 3). -/
def execHoldTimerExpiry (h : Head) (event : Nat) (s : State) : Outcome :=
  .next ((s.advance (eventTime event)).meetTimer h event)

/-! ### ESTOP (R83, R88, R142) -/

/-- ESTOP_ASSERTED: PERMIT is held, strokes are aborted, ESTOP joins the further-cause sets of halted
heads, and every claim is revoked or dropped (R83, R88, R142). -/
def execEstopAsserted (s : State) : Outcome :=
  .next (({ s with estop := true }).endEverything .estop .estop)

/-- ESTOP_RELEASED: no head state changes, and the queue is passed (R83). -/
def execEstopReleased (s : State) : Outcome := .next (({ s with estop := false }).pass none)

/-! ### RESET (R20) -/

/-- HARDWARE_RESET: every block in its reset state, RESET asserted (R20, R40, R62, R85, R107, R147,
R160, R166). The waiting commands, the clock and the ESTOP input are not the part's to reset (logs 1,
2, 7). -/
def execHardwareReset (s : State) : Outcome :=
  .next { State.reset with
    pending := s.pending, clock := s.clock, estop := s.estop, resetHeld := true }

/-- RESET released with phases present at the encoder inputs (R20). -/
def State.releaseReset (s : State) (phases : PerHead Phase) : State :=
  { s with
    resetHeld := false
    fronts :=
      { h0 := { s.fronts.h0 with phase := phases.h0 }
        h1 := { s.fronts.h1 with phase := phases.h1 }
        h2 := { s.fronts.h2 with phase := phases.h2 }
        h3 := { s.fronts.h3 with phase := phases.h3 } } }

/-- RESET_RELEASED: with RESET not asserted there is no release (log 6). -/
def execResetReleased (phases : PerHead Phase) (s : State) : Outcome :=
  .next (if s.resetHeld then s.releaseReset phases else s)

/-! ### MEMORY_WORD_FAULT (R33) -/

/-- A bit of one of a slot's stored records flips; a record that is absent has no bit to flip. -/
def TypeSlot.flip (slot : TypeSlot) (which : RecordSlot) (word bit : Nat) : TypeSlot :=
  match which with
  | .active => { slot with active := slot.active.map (·.flip word bit) }
  | .pending => { slot with waiting := slot.waiting.map (·.flip word bit) }

/-- MEMORY_WORD_FAULT: the fault stands in the stored record until a read finds it (R33, R39). -/
def execMemoryWordFault (t : Fin 48) (which : RecordSlot) (word bit : Nat) (s : State) : Outcome :=
  .next (s.setType t ((s.typeSlot t).flip which word bit))

end Sys2Proof.Machine
end

