-- ==== Sys2Proof/Machine/LinkEvents.lean ====
section
/-! DEFINITION. The events of the links: the break, transmission, and the frames that end on a link,
whatever they hold. -/

namespace Sys2Proof.Machine

/-! ### LINK_BREAK (R82, R106, R143, R167) -/

/-- A head's link has gone DOWN: a waiting claim is dropped and an armed one revoked, with LINK_DOWN
and a pass; a stroke is aborted; LINK_DOWN joins a HALTED head's further-cause set (R82, R106). -/
def State.headLinkLost (s : State) (h : Head) : State :=
  match (s.monitor h).state with
  | .waiting =>
    match s.entryOf h with
    | some e => (s.dropEntry none .linkDown e).pass none
    | none => s.toIdle h
  | .armed => (s.revoke h .linkDown).pass none
  | _ => (s.strike h .linkDown).run

/-- A break on an UP link (R167): the cell link's is reported to no block. -/
def State.breakLink (s : State) (l : Link) : State :=
  let s := s.dropLink l
  match l with
  | .head h => s.headLinkLost h
  | .cell => s

/-- LINK_BREAK: a break on a DOWN link has no effect (R167). -/
def execLinkBreak (l : Link) (s : State) : Outcome :=
  .next (if (s.link l).up then s.breakLink l else s)

/-! ### Transmission (R170, R171) -/

/-- FRAME_TRANSMIT_START. -/
def execFrameTransmitStart (l : Link) (s : State) : Outcome := .next (s.startFrame l)

/-- FRAME_TRANSMISSION_END. -/
def execFrameTransmissionEnd (l : Link) (s : State) : Outcome := .next (s.endFrame l)

/-! ### Frames by their kind (R164, R166, R169) -/

/-- UNKNOWN_REQUEST: the status byte, then the kind byte as received (R172). -/
def unknownAnswer (kind : Byte) (s : State) : Answer := s.answer .unknownRequest [kind]

/-- A valid frame of a kind that is not a request of its link (R169). -/
def State.unknown (s : State) (l : Link) (kind tag : Byte) (payload : List Byte) : State :=
  s.request l kind tag payload (unknownAnswer kind)

/-- A valid frame ends on a head link: the request of its kind by the catalogue of section 9.6
(R169). -/
def headFrame (h : Head) (kind tag : Byte) (payload : List Byte) (s : State) : Outcome :=
  match kind.toNat with
  | 1 => execHello (.head h) tag payload s
  | 2 => execStatus h tag payload s
  | 16 => execHome h tag payload s
  | 17 => execClaim h tag payload s
  | 18 => execRelease h tag payload s
  | 19 => execStart h tag payload s
  | 20 => execStop h tag payload s
  | 21 => execRetracted h tag payload s
  | 22 => execHaltAck h tag payload s
  | _ => .next (s.unknown (.head h) kind tag payload)

/-- A valid frame ends on the cell link (section 9.6, R169). -/
def cellFrame (kind tag : Byte) (payload : List Byte) (s : State) : Outcome :=
  match kind.toNat with
  | 1 => execHello .cell tag payload s
  | 2 => execCellStatus tag payload s
  | 32 => execConfigureHead tag payload s
  | 33 => execBoardBegin tag payload s
  | 34 => execBoardEnd tag payload s
  | 35 => execBoardAbort tag payload s
  | 36 => execSiteDefine tag payload s
  | 37 => execLoad tag payload s
  | 38 => execUnload tag payload s
  | 39 => execReadSite tag payload s
  | 40 => execLoadType tag payload s
  | 41 => execPurgeType tag payload s
  | 42 => execReadType tag payload s
  | 43 => execTakeRecord tag payload s
  | 44 => execWarmReset tag payload s
  | _ => .next (s.unknown .cell kind tag payload)

/-- A valid frame ends on a link; what becomes of it follows from the link and the kind (R169). -/
def frameEnds (l : Link) (kind tag : Byte) (payload : List Byte) (s : State) : Outcome :=
  match l with
  | .head h => headFrame h kind tag payload s
  | .cell => cellFrame kind tag payload s

/-- DOWN_LINK_DISCARD: the frame ends, and a DOWN link discards it (R166, log 9). -/
def execDownLinkDiscard (l : Link) (kind tag : Byte) (payload : List Byte) (s : State) : Outcome :=
  frameEnds l kind tag payload s

/-- OVERRUN_DISCARD: the frame ends, and a link whose output queue holds 16 frames discards it and
sets the overrun flag (R169, R171, log 9). -/
def execOverrunDiscard (l : Link) (kind tag : Byte) (payload : List Byte) (s : State) : Outcome :=
  frameEnds l kind tag payload s

/-- UNKNOWN_REQUEST: the frame ends, and a kind that is not a request of the link is answered so
(R169, log 9). -/
def execUnknownRequest (l : Link) (kind tag : Byte) (payload : List Byte) (s : State) : Outcome :=
  frameEnds l kind tag payload s

/-- INVALID_FRAME: the characters complete a frame, which is discarded without reply where the check
of R164 fails, and the assembly is emptied. A frame that passes the check is a valid frame (log 10).
Nothing is received while RESET is asserted (log 6). -/
def execInvalidFrame (l : Link) (chars : List RxChar) (s : State) : Outcome :=
  if s.resetHeld then .next s
  else
    match ((s.link l).assemble chars).frame with
    | none => .next (s.clearAssembly l)
    | some f => frameEnds l f.kind f.tag f.payload (s.clearAssembly l)

end Sys2Proof.Machine
end

