-- ==== Sys2Proof/Machine/Dispatch.lean ====
section
/-! DEFINITION. The effect of each command on everything but the queue of waiting commands: one arm
per row of spec/opcode_table.json. -/

namespace Sys2Proof.Machine

def exec (i : Instr) (s : State) : Host.Outcome State Fault Refusal :=
  match i with
  | .sampleComplete h conv => Sys2Proof.Machine.execSampleComplete h conv s
  | .encoderTransition h seen => Sys2Proof.Machine.execEncoderTransition h seen s
  | .holdTimerExpiry h event => Sys2Proof.Machine.execHoldTimerExpiry h event s
  | .estopAsserted => Sys2Proof.Machine.execEstopAsserted s
  | .estopReleased => Sys2Proof.Machine.execEstopReleased s
  | .hardwareReset => Sys2Proof.Machine.execHardwareReset s
  | .resetReleased phases => Sys2Proof.Machine.execResetReleased phases s
  | .linkBreak l => Sys2Proof.Machine.execLinkBreak l s
  | .frameTransmitStart l => Sys2Proof.Machine.execFrameTransmitStart l s
  | .invalidFrame l chars => Sys2Proof.Machine.execInvalidFrame l chars s
  | .downLinkDiscard l kind tag payload => Sys2Proof.Machine.execDownLinkDiscard l kind tag payload s
  | .overrunDiscard l kind tag payload => Sys2Proof.Machine.execOverrunDiscard l kind tag payload s
  | .unknownRequest l kind tag payload => Sys2Proof.Machine.execUnknownRequest l kind tag payload s
  | .hello l tag payload => Sys2Proof.Machine.execHello l tag payload s
  | .status h tag payload => Sys2Proof.Machine.execStatus h tag payload s
  | .cellStatus tag payload => Sys2Proof.Machine.execCellStatus tag payload s
  | .home h tag payload => Sys2Proof.Machine.execHome h tag payload s
  | .claim h tag payload => Sys2Proof.Machine.execClaim h tag payload s
  | .release h tag payload => Sys2Proof.Machine.execRelease h tag payload s
  | .start h tag payload => Sys2Proof.Machine.execStart h tag payload s
  | .stop h tag payload => Sys2Proof.Machine.execStop h tag payload s
  | .retracted h tag payload => Sys2Proof.Machine.execRetracted h tag payload s
  | .haltAck h tag payload => Sys2Proof.Machine.execHaltAck h tag payload s
  | .configureHead tag payload => Sys2Proof.Machine.execConfigureHead tag payload s
  | .boardBegin tag payload => Sys2Proof.Machine.execBoardBegin tag payload s
  | .boardEnd tag payload => Sys2Proof.Machine.execBoardEnd tag payload s
  | .boardAbort tag payload => Sys2Proof.Machine.execBoardAbort tag payload s
  | .siteDefine tag payload => Sys2Proof.Machine.execSiteDefine tag payload s
  | .load tag payload => Sys2Proof.Machine.execLoad tag payload s
  | .unload tag payload => Sys2Proof.Machine.execUnload tag payload s
  | .readSite tag payload => Sys2Proof.Machine.execReadSite tag payload s
  | .loadType tag payload => Sys2Proof.Machine.execLoadType tag payload s
  | .purgeType tag payload => Sys2Proof.Machine.execPurgeType tag payload s
  | .readType tag payload => Sys2Proof.Machine.execReadType tag payload s
  | .takeRecord tag payload => Sys2Proof.Machine.execTakeRecord tag payload s
  | .warmReset tag payload => Sys2Proof.Machine.execWarmReset tag payload s
  | .frameTransmissionEnd l => Sys2Proof.Machine.execFrameTransmissionEnd l s
  | .memoryWordFault t which word bit => Sys2Proof.Machine.execMemoryWordFault t which word bit s

end Sys2Proof.Machine
end

