-- ==== Sys2Proof/Safety.lean ====
section
/-! DEFINITION. What a sound state of the part is, in the terms the statements use. Each structure is
meant to be kept by every step; a structure that extends another needs it for that. -/

namespace Sys2Proof.Machine

/-! ### Links -/

/-- A Link Controller's ranges (section 9), and what a DOWN link holds (R166, R167). -/
structure LinkSound (k : LinkState) : Prop where
  room : k.out.length ≤ Config.outputSlots
  assembly : k.assembly.length ≤ Config.assemblyMax
  down : k.up = false →
    k.out = [] ∧ k.tx = none ∧ k.overrun = false ∧ k.assembly = [] ∧ k.assemblyBad = false

/-- Every link is sound. -/
def LinksSound (s : State) : Prop := ∀ l : Link, LinkSound (s.link l)

/-! ### Sensing Front Ends -/

/-- The ranges of a corner (the table of section 1). -/
structure CornerSound (c : Corner) : Prop where
  gain : 1 ≤ c.gain ∧ c.gain ≤ 65535
  run : c.noiseRun ≤ 3

/-- The ranges of a front end (the table of section 1), and the tare state SETTLING exactly while
the stability run is below N_s (section 1.6). -/
structure FrontSound (p : Period) (f : FrontEnd) : Prop where
  corner0 : CornerSound f.corners.c0
  corner1 : CornerSound f.corners.c1
  corner2 : CornerSound f.corners.c2
  corner3 : CornerSound f.corners.c3
  noise : f.noiseLimit ≤ 65535
  hysteresis : f.hysteresis ≤ 2000
  tare : f.tare.value.natAbs ≤ Config.tareLimit
  run : f.tare.run ≤ stabilitySamples p f
  settling : f.tare.state = .settling ↔ f.tare.run < stabilitySamples p f
  position : Config.positionMin ≤ f.position ∧ f.position ≤ Config.positionMax
  held : f.heldCount ≤ 255

/-- Every front end is sound. -/
def FrontsSound (s : State) : Prop := ∀ h : Head, FrontSound s.period (s.front h)

/-! ### The Envelope Library -/

/-- A stored record lists each flipped bit once, in rising order of word and bit (log 11). -/
def StoredRecord.InOrder (r : StoredRecord) : Prop :=
  r.flips.Pairwise fun f g => f.1 < g.1 ∨ (f.1 = g.1 ∧ f.2 < g.2)

/-- What a type's slot holds in each type state (R22 and the table of section 2.3). -/
structure SlotSound (slot : TypeSlot) : Prop where
  absent : slot.state = .absent → slot.users = 0 ∧ slot.faults = 0
  active : slot.state = .absent ↔ slot.active = none
  pending : slot.state = .draining ↔ slot.waiting.isSome
  draining : slot.state = .draining → 1 ≤ slot.users
  faults : slot.faults ≤ 255
  stored : ∀ r, slot.active = some r ∨ slot.waiting = some r → r.InOrder

/-- Every type's slot is sound. -/
def LibrarySound (s : State) : Prop := ∀ t : Fin 48, SlotSound (s.typeSlot t)

/-! ### Sites -/

/-- The ranges of a site's entry (R48), and its attempts and last outcome by its state (R48, R51,
R55, R60). -/
structure SiteSound (e : SiteEntry) : Prop where
  place : e.x ≤ 65535 ∧ e.y ≤ 65535
  keepOut : 1 ≤ e.keepOut.length ∧ e.keepOut.length ≤ 6
  distinct : e.keepOut.Nodup
  attempts : e.attempts ≤ 3
  spent : e.attempts = 3 → (∃ d, e.state = .seated d) ∨ e.state = .lockedOut
  fresh : e.state = .empty ∨ e.state = .loaded → e.attempts = 0 ∧ e.last = none
  locked : e.state = .lockedOut → e.attempts = 3
  first : ∀ h, e.state = .claimed h .loaded ∨ e.state = .pressing h .loaded →
    e.attempts = 0 ∧ e.last = none
  again : ∀ h, e.state = .claimed h .rejected ∨ e.state = .pressing h .rejected →
    e.attempts < 3 ∧ e.last = some (.abort .depthLimit)

/-- Every defined site is sound. -/
def SitesSound (s : State) : Prop := ∀ n e, s.site n = some e → SiteSound e

/-! ### Heads -/

/-- The abort items of a HALTED head: each further cause held once and in order of code, never the
primary cause, nor a code above 13 (R135), and the record due except after SUPERVISOR_RESET (R136). -/
structure AbortSound (a : AbortItems) : Prop where
  order : a.further.Pairwise fun c d => c.code < d.code
  primary : a.primary ∉ a.further
  codes : ∀ c ∈ a.further, c.code ≤ 13
  due : a.due = none ↔ a.primary = .supervisorReset

/-- A head holds a granted claim on its site: ARMED or in a stroke state. -/
def HeadState.active (st : HeadState) : Bool := st == .armed || st.inStroke

/-- What a Stroke Monitor holds in each head state (section 5.1, R87): PERMIT driven in the stroke
states alone (R88), the hold timer running in ARMED alone (R76), a reservation from the grant until
the record or the end of the claim (R75). -/
structure HeadSound (m : Monitor) : Prop where
  permit : m.permit = m.state.inStroke
  timer : m.grantTime.isSome ↔ m.state = .armed
  unclaimed : m.state = .idle ∨ m.state = .waiting →
    m.claim = none ∧ m.copy = none ∧ m.stroke = none ∧ m.slot = false
  claimed : m.state ≠ .idle → m.state ≠ .waiting → m.claim.isSome ∧ m.copy.isSome
  stroke : m.stroke.isSome ↔ m.state.inStroke = true ∨ m.state.unacknowledged = true
  reserved : m.state.active = true → m.slot = true
  judged : m.state = .retract → m.slot = false
  running : ∀ k, m.stroke = some k → m.state ≠ .halted → k.abort = none
  halted : ∀ k, m.stroke = some k → m.state = .halted → ∃ a, k.abort = some a ∧ AbortSound a

/-- Every head is sound. -/
def HeadsSound (s : State) : Prop := ∀ h : Head, HeadSound (s.monitor h)

/-! ### Claims -/

/-- The claim queue holds one entry for each WAITING head and for no other (R65, R87), within the
bypass limit (R65); claims, armed claims and strokes are there on an OPEN board with ESTOP released
alone (R44, R45, R83). -/
structure ClaimsSound (s : State) : Prop where
  heads : HeadsSound s
  once : (s.queue.map (·.head)).Nodup
  waiting : ∀ h : Head, (s.monitor h).state = .waiting ↔ h ∈ s.queue.map (·.head)
  bypass : ∀ e ∈ s.queue, e.bypass ≤ s.board.bypassLimit
  waitingOpen : s.queue ≠ [] → s.board.state = .isOpen ∧ s.estop = false
  activeOpen : ∀ h : Head, (s.monitor h).state.active = true →
    s.board.state = .isOpen ∧ s.estop = false

/-! ### Hold timers (R76) -/

/-- The claim of a head does not expire before a time: where the head is ARMED, every timebase event at
or after the end of its hold is at or after that time (R76). -/
def State.expiresNoSooner (s : State) (h : Head) (time : Nat) : Prop :=
  ∀ granted event : Nat, (s.monitor h).state = .armed → (s.monitor h).grantTime = some granted →
    granted + s.board.holdTime * 100000 ≤ event * 10000 → time ≤ event * 10000

/-- No claim expires before a time (R76). -/
def State.quietUntil (s : State) (time : Nat) : Prop := ∀ h : Head, s.expiresNoSooner h time

/-- No armed claim outlives the first timebase event at or after the end of its hold (R76). -/
structure HoldLaw (s : State) : Prop extends ClaimsSound s where
  timers : s.quietUntil s.clock

/-! ### The law of sites and heads (R49) -/

/-- A site is CLAIMED by a head. -/
def State.claimedBy (s : State) (n : Fin 96) (h : Head) : Prop :=
  ∃ e g, s.site n = some e ∧ e.state = .claimed h g

/-- A site is PRESSING under a head. -/
def State.pressedBy (s : State) (n : Fin 96) (h : Head) : Prop :=
  ∃ e g, s.site n = some e ∧ e.state = .pressing h g

/-- A head's granted claim is on a site. -/
def State.claims (s : State) (h : Head) (n : Fin 96) : Prop :=
  ∃ c, (s.monitor h).claim = some c ∧ c.site = n

/-- The law of R49: CLAIMED exactly under the ARMED head that has claimed the site, PRESSING exactly
under the head in a stroke state that has; and no site without a board (R42). -/
structure SiteLaw (s : State) : Prop extends ClaimsSound s where
  claimed : ∀ n h, s.claimedBy n h ↔ ((s.monitor h).state = .armed ∧ s.claims h n)
  pressing : ∀ n h, s.pressedBy n h ↔ ((s.monitor h).state.inStroke = true ∧ s.claims h n)
  undefined : s.board.state = .noBoard → ∀ n, s.site n = none

/-! ### Zones (R64) -/

/-- A head with an armed claim or a stroke holds exactly the keep-out set of its site, and a head
without a granted claim holds no zone (R64). -/
structure ZoneLaw (s : State) : Prop extends SiteLaw s where
  held : ∀ h c, (s.monitor h).state.active = true → (s.monitor h).claim = some c →
    ∀ z, s.holder z = some h ↔ z ∈ s.keepOut c.site
  free : ∀ h, (s.monitor h).state = .idle ∨ (s.monitor h).state = .waiting →
    ∀ z, s.holder z ≠ some h

/-! ### Result slots (R148) -/

/-- A HALTED head whose record is due without a reservation, a warm reset having cleared it (R146). -/
def Monitor.owes (m : Monitor) : Bool :=
  m.state == .halted && !m.slot
    && (match m.stroke.bind (·.abort) with
      | some a => a.due.isSome
      | none => false)

/-- The number of records due without a reservation. -/
def State.owed (s : State) : Nat := s.monitors.toList.countP (·.owes)

/-- The records, the reservations, and the records due without one fit the 64 slots; and a HALTED head
without a reservation is there with no board alone (R43, R146, R148). -/
structure SlotLaw (s : State) : Prop extends ClaimsSound s where
  unreserved : ∀ h, (s.monitor h).state = .halted → (s.monitor h).slot = false →
    s.board.state = .noBoard
  room : s.records.length + s.reserved + s.owed ≤ Config.resultSlots

/-! ### Users of a type (R28) -/

/-- A head is a user of a type: its claim or stroke is in progress on a copy of it (R28). -/
def Monitor.uses (m : Monitor) (t : Fin 48) : Bool :=
  m.state.active && (m.copy.map (·.typeNo)) == some t

/-- The user count of every type is the number of heads that use it, each with its copy of the type
its site names; and a type that a site names is not ABSENT (R28, R37, R66). -/
structure UserLaw (s : State) : Prop extends SiteLaw s where
  library : LibrarySound s
  users : ∀ t, (s.typeSlot t).users = s.monitors.toList.countP (·.uses t)
  copies : ∀ h c w, (s.monitor h).state.active = true → (s.monitor h).claim = some c →
    (s.monitor h).copy = some w → s.typeAt c.site = some w.typeNo
  named : ∀ n t, s.typeAt n = some t → (s.typeSlot t).state ≠ .absent

/-! ### The words of the statements -/

/-- A link takes a request: RESET is released, the link is UP, and fewer than 16 frames wait (R169). -/
def State.takes (s : State) (l : Link) : Bool :=
  !s.resetHeld && (s.link l).up && decide ((s.link l).out.length < Config.outputSlots)

/-- The link and the frame of a request command: its kind by the catalogue of section 9.6. -/
def requestFrame : Instr → Option (Link × Frame)
  | .sampleComplete _ _ => none
  | .encoderTransition _ _ => none
  | .holdTimerExpiry _ _ => none
  | .estopAsserted => none
  | .estopReleased => none
  | .hardwareReset => none
  | .resetReleased _ => none
  | .linkBreak _ => none
  | .frameTransmitStart _ => none
  | .invalidFrame _ _ => none
  | .downLinkDiscard _ _ _ _ => none
  | .overrunDiscard _ _ _ _ => none
  | .unknownRequest _ _ _ _ => none
  | .hello l tag payload => some (l, ⟨1, tag, payload⟩)
  | .status h tag payload => some (.head h, ⟨2, tag, payload⟩)
  | .cellStatus tag payload => some (.cell, ⟨2, tag, payload⟩)
  | .home h tag payload => some (.head h, ⟨16, tag, payload⟩)
  | .claim h tag payload => some (.head h, ⟨17, tag, payload⟩)
  | .release h tag payload => some (.head h, ⟨18, tag, payload⟩)
  | .start h tag payload => some (.head h, ⟨19, tag, payload⟩)
  | .stop h tag payload => some (.head h, ⟨20, tag, payload⟩)
  | .retracted h tag payload => some (.head h, ⟨21, tag, payload⟩)
  | .haltAck h tag payload => some (.head h, ⟨22, tag, payload⟩)
  | .configureHead tag payload => some (.cell, ⟨32, tag, payload⟩)
  | .boardBegin tag payload => some (.cell, ⟨33, tag, payload⟩)
  | .boardEnd tag payload => some (.cell, ⟨34, tag, payload⟩)
  | .boardAbort tag payload => some (.cell, ⟨35, tag, payload⟩)
  | .siteDefine tag payload => some (.cell, ⟨36, tag, payload⟩)
  | .load tag payload => some (.cell, ⟨37, tag, payload⟩)
  | .unload tag payload => some (.cell, ⟨38, tag, payload⟩)
  | .readSite tag payload => some (.cell, ⟨39, tag, payload⟩)
  | .loadType tag payload => some (.cell, ⟨40, tag, payload⟩)
  | .purgeType tag payload => some (.cell, ⟨41, tag, payload⟩)
  | .readType tag payload => some (.cell, ⟨42, tag, payload⟩)
  | .takeRecord tag payload => some (.cell, ⟨43, tag, payload⟩)
  | .warmReset tag payload => some (.cell, ⟨44, tag, payload⟩)
  | .frameTransmissionEnd _ => none
  | .memoryWordFault _ _ _ _ => none

/-- The reply of a request joined to its link's output queue, and nothing else changed (R172). -/
def State.withReply (s : State) (l : Link) (kind tag : Byte) (st : Status) (fields : List Byte) :
    State :=
  s.setLink l { s.link l with
    out := (s.link l).out ++ [replyFrame kind tag { status := st, fields := fields }] }

/-- Every field of a type record fits the width R178 gives it. -/
structure RecordFits (r : TypeRecord) : Prop where
  words : r.pinTotal < 65536 ∧ r.contactThreshold < 65536 ∧ r.approachLimit < 65536 ∧
    r.seatStart < 65536 ∧ r.seatSearch < 65536 ∧ r.slopeThreshold < 65536 ∧
    r.overtravelMax < 65536 ∧ r.dwell < 65536 ∧ r.tiltLimit < 65536 ∧ r.stallTime < 65536 ∧
    r.strokeLimit < 65536
  bytes : r.confirmCount < 256 ∧ r.seatWindow < 256 ∧ r.groups.length < 256
  forces : r.forceMax < 4294967296 ∧ r.tiltFloor < 4294967296
  groups : ∀ g ∈ r.groups, g.entry < 65536 ∧ g.pins < 65536 ∧ g.fmin < 65536 ∧ g.fmax < 65536 ∧
    g.settle < 65536

/-- The checks of R24 on the record alone, by number; 6 to 12 are the checks of the groups. -/
def recordCheck (r : TypeRecord) : Nat → Prop
  | 1 => 1 ≤ r.groups.length ∧ r.groups.length ≤ 8
  | 2 => 1 ≤ r.pinTotal ∧ r.pinTotal ≤ 2000
  | 3 => 10 ≤ r.contactThreshold ∧ r.contactThreshold ≤ 50000
  | 4 => 1 ≤ r.confirmCount ∧ r.confirmCount ≤ 8
  | 5 => 1 ≤ r.approachLimit ∧ r.approachLimit ≤ 50000
  | 13 => (r.groups.map (·.pins)).sum = r.pinTotal
  | 14 => r.seatStart ≤ 32000 ∧ ∀ g, r.groups.getLast? = some g → g.entry + g.settle ≤ r.seatStart
  | 15 => 1 ≤ r.seatSearch ∧ r.seatSearch ≤ 10000
  | 16 => 1 ≤ r.slopeThreshold ∧ r.slopeThreshold ≤ 65535
  | 17 => 2 ≤ r.seatWindow ∧ r.seatWindow ≤ 16
  | 18 => 1 ≤ r.forceMax ∧ r.forceMax ≤ 2000000
  | 19 => r.overtravelMax ≤ 2000
  | 20 => r.dwell ≤ 1000
  | 21 => 1 ≤ r.tiltLimit ∧ r.tiltLimit ≤ 1000
  | 22 => r.tiltFloor ≤ 2000000
  | 23 => 10 ≤ r.stallTime ∧ r.stallTime ≤ 2000
  | 24 => 1 ≤ r.strokeLimit ∧ r.strokeLimit ≤ 600
  | _ => True

/-- The checks 6 to 12 of R24 on the group at place `k` of the list, counted from 0. -/
def groupCheck (gs : List Group) (k : Nat) (g : Group) : Nat → Prop
  | 6 => g.entry ≤ 20000
  | 7 => 1 ≤ g.pins ∧ g.pins ≤ 1000
  | 8 => (1 ≤ g.fmin ∧ g.fmin ≤ 5000) ∧ 1 ≤ g.fmax ∧ g.fmax ≤ 5000
  | 9 => g.fmin ≤ g.fmax
  | 10 => g.settle ≤ 2000
  | 11 => k = 0 → g.entry = 0
  | 12 => ∀ p, 1 ≤ k → gs[k - 1]? = some p → p.entry < g.entry ∧ p.entry + p.settle ≤ g.entry
  | _ => True

/-- Check `n` of R24 holds of a record: of itself, and of each of its groups. -/
def checkHolds (r : TypeRecord) (n : Nat) : Prop :=
  recordCheck r n ∧ ∀ k g, r.groups[k]? = some g → groupCheck r.groups k g n

/-- A stored record that a read corrects: at most one flipped bit in each word (R33, log 11). -/
def StoredRecord.sound (r : StoredRecord) : Prop := ∀ word, r.flippedIn word ≤ 1

/-- A sample of a head by the rules' words (R8, R9, R13): the corner entries, gross force their sum, net
force by the tare in force before the sample's own step, tilt, position and period fault indicator. -/
def State.sampleOf (s : State) (h : Head) (conv : PerCorner Conversions) : SampleRecord :=
  let f := s.front h
  let entries := f.corners.zipWith (cornerEntry f.noiseLimit) conv
  let gross := entries.c0.force + entries.c1.force + entries.c2.force + entries.c3.force
  { head := h, corners := entries, gross := gross, net := gross - f.tare.value
    tilt := tiltOf (s.monitor h) entries, position := f.position, periodFault := f.periodFault }

/-- A stroke variable set as an abort leaves it (R136): the group results completed, on a stroke without
restrike, with one NOT_REACHED result for each group not judged (R122), the rest of the evaluation as the
last sample left it (R109), the abort items recorded, the record fixed and due except after
SUPERVISOR_RESET (R141). -/
def Stroke.aborted (k : Stroke) (h : Head) (c : Claim) (w : WorkingCopy) (held : Nat)
    (contact : Bool) (cause : Cause) (further : List Cause) : Stroke :=
  let judged := k.eval.results.length
  let results := if c.restrike then k.eval.results
    else k.eval.results ++ (List.range (w.fields.groups.length - judged)).map fun i =>
      { index := judged + i + 1, status := .notReached, step := none, mean := none, deficit := none }
  { k with
    eval := { k.eval with results := results }
    abort := some
      { primary := cause
        further := further
        contact := contact
        due := if cause = .supervisorReset then none else some
          { serial := k.serial, site := c.site, typeNo := w.typeNo, partCode := w.fields.partCode
            head := h, attempt := k.attempt, restrike := c.restrike, outcome := .abort
            failures := some k.eval.failures, firstBandDepth := k.eval.firstBandDepth
            causes := some (cause, further), contactPosition := k.contactPosition
            seatDepth := k.seatDepth, overtravel := k.eval.overtravel
            peakForce := k.peakForce, peakTilt := k.peakTilt, samples := k.samples
            samplesSaturated := k.samplesSaturated, heldCount := held
            groups := if c.restrike then none else some results } } }

/-- A signed number as its four bytes carry it, in two's complement (R176). -/
def signed32 (x : Int) : Nat := (x % 4294967296).toNat

/-- The places of the fields in a head's STATUS (R104, R176), with `q` the place after the zones held.
The widths and the presence bytes that R104 and R176 leave open are log 16, the hold time left log 18. -/
structure HeadStatusLaid (s : State) (h : Head) (b : List Byte) : Prop where
  length : b.length = 77 + (s.zonesHeld h).length
  outputs : at8 b 0 = (s.monitor h).state.code ∧ at8 b 1 = (s.permitOut h).toNat ∧
    at8 b 2 = s.estop.toNat ∧ at8 b 3 = s.board.state.code
  unclaimed : (s.monitor h).claim = none → (∀ e ∈ s.queue, e.head ≠ h) →
    at8 b 4 = 0 ∧ at8 b 5 = 0 ∧ at8 b 6 = 0
  claimed : ∀ c, (s.monitor h).claim = some c →
    at8 b 4 = 1 ∧ at8 b 5 = c.site.val ∧ at8 b 6 = c.restrike.toNat
  unqueued : (∀ e ∈ s.queue, e.head ≠ h) → at8 b 7 = 0 ∧ at8 b 8 = 0
  queued : ∀ (i : Nat) e, s.queue[i]? = some e → e.head = h →
    (∀ j e', j < i → s.queue[j]? = some e' → e'.head ≠ h) →
    at8 b 7 = 1 ∧ at8 b 8 = (i + 1) % 256 ∧
    ((s.monitor h).claim = none →
      at8 b 4 = 1 ∧ at8 b 5 = e.claim.site.val ∧ at8 b 6 = e.claim.restrike.toNat)
  zones : let zs := (List.finRange 32).filter fun z => s.holder z == some h
    at8 b 9 = zs.length ∧ ∀ (i : Nat) z, zs[i]? = some z → at8 b (10 + i) = z.val
  copy : let q := 10 + (s.zonesHeld h).length
    at8 b q = (s.monitor h).copy.isSome.toNat ∧
    at8 b (q + 1) = ((s.monitor h).copy.map fun w => w.typeNo.val).getD 0 ∧
    at32 b (q + 2) = ((s.monitor h).copy.map fun w => w.fields.partCode.toNat).getD 0
  hold : let q := 10 + (s.zonesHeld h).length
    at8 b (q + 6) = (s.monitor h).grantTime.isSome.toNat ∧
    at16 b (q + 7) = ((s.monitor h).grantTime.map fun granted =>
      ((granted + s.board.holdTime * 100000 + 9999) / 10000 - s.clock / 10000) % 65536).getD 0
  still : let q := 10 + (s.zonesHeld h).length
    (s.monitor h).stroke = none → (b.drop (q + 9)).take 20 = List.replicate 20 0
  stroke : let q := 10 + (s.zonesHeld h).length
    ∀ k, (s.monitor h).stroke = some k →
      at8 b (q + 9) = 1 ∧ at32 b (q + 10) = k.count % 4294967296 ∧
      at8 b (q + 14) = k.contactPosition.isSome.toNat ∧
      at32 b (q + 15) = (k.contactPosition.map signed32).getD 0 ∧
      at8 b (q + 19) = k.seatDepth.isSome.toNat ∧
      at32 b (q + 20) = (k.seatDepth.map signed32).getD 0 ∧
      ((s.monitor h).state = .seating →
        at8 b (q + 24) = 1 ∧ at32 b (q + 25) = k.dwell % 4294967296) ∧
      ((s.monitor h).state ≠ .seating → at8 b (q + 24) = 0 ∧ at32 b (q + 25) = 0)
  cause : let q := 10 + (s.zonesHeld h).length
    ((s.monitor h).state ≠ .halted → at8 b (q + 29) = 0 ∧ at8 b (q + 30) = 0) ∧
    ∀ k a, (s.monitor h).state = .halted → (s.monitor h).stroke = some k → k.abort = some a →
      at8 b (q + 29) = 1 ∧ at8 b (q + 30) = a.primary.code
  sensing : b.drop (41 + (s.zonesHeld h).length) = sensingBytes (s.front h)

/-- The places of the fields of a defined site in READ_SITE's reply (R48, R54, R176), with `q` the place
after the keep-out set. The presence bytes that R54 and R176 leave open are log 15. -/
structure SiteLaid (n : Fin 96) (e : SiteEntry) (b : List Byte) : Prop where
  length : b.length = 27 + e.keepOut.length
  place : at8 b 0 = n.val ∧ at8 b 1 = e.state.code ∧ at8 b 2 = 1 ∧ at8 b 3 = e.typeNo.val ∧
    at8 b 4 = 1 ∧ at16 b 5 = e.x % 65536 ∧ at16 b 7 = e.y % 65536
  keepOut : at8 b 9 = 1 ∧ at8 b 10 = e.keepOut.length % 256 ∧
    ∀ (i : Nat) z, e.keepOut[i]? = some z → at8 b (11 + i) = z.val
  attempts : let q := 11 + e.keepOut.length
    at8 b q = 1 ∧ at8 b (q + 1) = e.attempts % 256
  last : let q := 11 + e.keepOut.length
    at8 b (q + 2) = e.last.isSome.toNat ∧
    (e.last = none ∨ e.last = some .pass →
      at8 b (q + 3) = 0 ∧ at8 b (q + 4) = 0 ∧ at8 b (q + 5) = 0) ∧
    (∀ f, e.last = some (.reject f) → at8 b (q + 3) = 1 ∧
      at8 b (q + 4) = f.bandHigh.toNat + 2 * f.bandLow.toNat + 4 * f.groupLow.toNat
        + 8 * f.groupHigh.toNat ∧ at8 b (q + 5) = 0) ∧
    ∀ c, e.last = some (.abort c) →
      at8 b (q + 3) = 2 ∧ at8 b (q + 4) = 0 ∧ at8 b (q + 5) = c.code
  depth : let q := 11 + e.keepOut.length
    (∀ d, e.state = .seated d → at8 b (q + 6) = 1 ∧ at32 b (q + 7) = signed32 d) ∧
    ((∀ d, e.state ≠ .seated d) → at8 b (q + 6) = 0 ∧ at32 b (q + 7) = 0)
  holder : let q := 11 + e.keepOut.length
    (∀ h g, e.state = .claimed h g ∨ e.state = .pressing h g →
      at8 b (q + 11) = 1 ∧ at8 b (q + 12) = headNo h ∧ at8 b (q + 13) = 1 ∧
      (g = .loaded → at8 b (q + 14) = 2) ∧ (g = .rejected → at8 b (q + 14) = 6)) ∧
    ((∀ h g, e.state ≠ .claimed h g ∧ e.state ≠ .pressing h g) →
      at8 b (q + 11) = 0 ∧ at8 b (q + 12) = 0 ∧ at8 b (q + 13) = 0 ∧ at8 b (q + 14) = 0)
  eligible : at8 b (26 + e.keepOut.length) =
    (decide (e.state = .rejected ∧ e.last = some (.abort .depthLimit) ∧ e.attempts < 3)).toNat

/-- The slot of a type after `ending` of its users are released together (R28): a DRAINING type whose
last user is among them is installed (R29), or BROKEN where the pending record is not readable (R36,
log 12). -/
def TypeSlot.afterReleases (slot : TypeSlot) (ending : Nat) (after : TypeSlot) : Prop :=
  (slot.state ≠ .draining ∨ ending < slot.users →
    after = { slot with users := slot.users - ending }) ∧
  ∀ p, slot.state = .draining → 1 ≤ slot.users → slot.users ≤ ending → slot.waiting = some p →
    (p.sound → after =
      { state := .ready, users := 0, faults := min p.flips.length 255
        active := some { p with flips := [] }, waiting := none }) ∧
    (¬ p.sound → after =
      { state := .broken, users := 0, faults := min (slot.faults + p.correctable) 255
        active := slot.active, waiting := none })

/-- What an event that ends every claim and stroke leaves (R83, R139, R142, R144): a waiting claim
dropped, an armed one revoked, a stroke aborted, the cause joined to a HALTED head's further-cause
set, each head told of its own; sites and zones of the armed claims given back, the outcomes of the
strokes applied, and the users of both released (R28, R81, R136). -/
structure EndedBy (r : ClaimReason) (cause : Cause) (s t : State) : Prop where
  queue : t.queue = []
  idle : ∀ h, (s.monitor h).state = .idle → t.monitor h = s.monitor h ∧
    t.link (.head h) = s.link (.head h)
  waiting : ∀ h e, e ∈ s.queue → e.head = h → t.monitor h = Monitor.idle ∧
    t.link (.head h) = (s.link (.head h)).offer
      (eventFrame 65 (u8 e.claim.site.val ++ u8 r.code))
  armed : ∀ h c, (s.monitor h).state = .armed → (s.monitor h).claim = some c →
    t.monitor h = Monitor.idle ∧
    t.link (.head h) = (s.link (.head h)).offer (eventFrame 67 (u8 c.site.val ++ u8 r.code))
  stroke : ∀ h c w k, (s.monitor h).state.inStroke = true → (s.monitor h).claim = some c →
    (s.monitor h).copy = some w → (s.monitor h).stroke = some k →
    t.monitor h = { s.monitor h with
      state := .halted, permit := false
      stroke := some (k.aborted h c w (s.front h).heldCount (s.monitor h).state.afterContact
        cause []) } ∧
    t.front h = (s.front h).restartTare ∧
    t.link (.head h) = (s.link (.head h)).offer
      (eventFrame 71 (u8 c.site.val ++ u8 cause.code))
  halted : ∀ h k a, (s.monitor h).state = .halted → (s.monitor h).stroke = some k →
    k.abort = some a →
    t.link (.head h) = s.link (.head h) ∧
    ∃ further, t.monitor h = { s.monitor h with
        stroke := some { k with abort := some { a with further := further } } } ∧
      ∀ d, d ∈ further ↔ d ∈ a.further ∨ (d = cause ∧ cause ≠ a.primary)
  retract : ∀ h, (s.monitor h).state = .retract → t.monitor h = s.monitor h ∧
    t.link (.head h) = s.link (.head h)
  fronts : ∀ h, (s.monitor h).state.inStroke = false → t.front h = s.front h
  zones : ∀ z, t.holder z =
    match s.holder z with
    | some h => if (s.monitor h).state = .armed then none else some h
    | none => none
  records : t.records = s.records
  library : ∀ i, (s.typeSlot i).afterReleases (s.monitors.toList.countP fun m =>
    m.state.active && m.copy.map (·.typeNo) == some i) (t.typeSlot i)
  frame : t.period = s.period ∧ t.clock = s.clock ∧ t.resetHeld = s.resetHeld

/-- What becomes of a site under such an event (R57, R59): a CLAIMED site returns to its state at
grant, a PRESSING one takes the outcome of the aborted stroke, and any other stays as it is. -/
def siteEnded (cause : Cause) (s : State) (e : SiteEntry) : SiteEntry :=
  match e.state with
  | .claimed _ g => { e with state := g.toState }
  | .pressing h _ => e.apply (.abort cause (s.monitor h).state.afterContact)
  | _ => e

end Sys2Proof.Machine
end

