-- ==== Sys2Proof/WellFormed.lean ====
section
/-! DEFINITION. Which commands are well formed: a command whose operands could reach the part as its
row says. A command that is not well formed still has its meaning: what the part does with such a
frame (logs 6, 9 and 10). -/

namespace Sys2Proof

/-- The request kinds of a link (the catalogue of section 9.6). -/
def requestKinds : Link → List Nat
  | .head _ => [1, 2, 16, 17, 18, 19, 20, 21, 22]
  | .cell => [1, 2, 32, 33, 34, 35, 36, 37, 38, 39, 40, 41, 42, 43, 44]

/-- A payload fits a frame (R177). -/
def payloadFits (payload : List Byte) : Bool := decide (payload.length ≤ Config.maxPayload)

/-- A frame is a HELLO with an empty payload, which a DOWN link takes (R168). -/
def opensLink (kind : Byte) (payload : List Byte) : Bool := kind.toNat == 1 && payload.isEmpty

/-- Characters that, from an empty assembly, complete no valid frame (R164). -/
def formNoFrame (chars : List RxChar) : Bool :=
  (chars.foldl Machine.Assembly.receive { bytes := [], bad := false }).frame.isNone

/-- A command is well formed. -/
def Instr.wellFormed : Instr → Bool
  | .sampleComplete _ _ => true
  | .encoderTransition _ _ => true
  | .holdTimerExpiry _ _ => true
  | .estopAsserted => true
  | .estopReleased => true
  | .hardwareReset => true
  | .resetReleased _ => true
  | .linkBreak _ => true
  | .frameTransmitStart _ => true
  | .invalidFrame _ chars => formNoFrame chars
  | .downLinkDiscard _ kind _ payload => payloadFits payload && !opensLink kind payload
  | .overrunDiscard _ _ _ payload => payloadFits payload
  | .unknownRequest l kind _ payload => payloadFits payload && !(requestKinds l).contains kind.toNat
  | .hello _ _ payload => payloadFits payload
  | .status _ _ payload => payloadFits payload
  | .cellStatus _ payload => payloadFits payload
  | .home _ _ payload => payloadFits payload
  | .claim _ _ payload => payloadFits payload
  | .release _ _ payload => payloadFits payload
  | .start _ _ payload => payloadFits payload
  | .stop _ _ payload => payloadFits payload
  | .retracted _ _ payload => payloadFits payload
  | .haltAck _ _ payload => payloadFits payload
  | .configureHead _ payload => payloadFits payload
  | .boardBegin _ payload => payloadFits payload
  | .boardEnd _ payload => payloadFits payload
  | .boardAbort _ payload => payloadFits payload
  | .siteDefine _ payload => payloadFits payload
  | .load _ payload => payloadFits payload
  | .unload _ payload => payloadFits payload
  | .readSite _ payload => payloadFits payload
  | .loadType _ payload => payloadFits payload
  | .purgeType _ payload => payloadFits payload
  | .readType _ payload => payloadFits payload
  | .takeRecord _ payload => payloadFits payload
  | .warmReset _ payload => payloadFits payload
  | .frameTransmissionEnd _ => true
  | .memoryWordFault _ _ _ _ => true

end Sys2Proof
end

