-- ==== Sys2Proof/Certificates/Slice0/Obligations.lean ====
section
/-! DEFINITION. The statements for the provers. `.next` answers of `exec` are given whole wherever a
record update says what changes: every field that the update does not name stays as it is. -/

open Sys2Proof Sys2Proof.Machine

/-! ### The step -/

/-- One step takes the command at the front of the queue and runs it on the state with the rest of
the queue; on an empty queue a microsecond passes, and where no claim is due by now nothing else changes
(logs 1, 2 and 3). What the passing of time does where one is due is ArmedClaimsAreGivenUp's. -/
def Obligations.StepRunsTheFrontCommand : Prop :=
  (∀ (c : Instr) (rest : List Instr) (s : State), s.pending = c :: rest →
    step s = exec c { s with pending := rest }) ∧
  (∀ s : State, s.pending = [] → s.quietUntil (s.clock + 1) →
    step s = .next { s with clock := s.clock + 1 })

/-- Every command answers a next state, and leaves the waiting commands as they are (log 1). -/
def Obligations.CommandsKeepTheWaitingCommands : Prop :=
  ∀ (c : Instr) (s : State), ∃ t, exec c s = .next t ∧ t.pending = s.pending

/-! ### Reset -/

/-- R40, R62, R85, R107, R160: what a hardware reset leaves; and R20: while RESET is asserted no
sample completes and no transition is counted, and its release takes the phases present, without a
count. That HARDWARE_RESET asserts RESET, which stays asserted until the release, and that a release
without it changes nothing, is log 6; that the clock and the ESTOP input are left is logs 2 and 7; the corner forces of the latest
sample record are log 23. -/
def Obligations.HardwareResetClearsTheBlocks : Prop :=
  (∀ s : State, ∃ t, exec .hardwareReset s = .next t ∧
    t.resetHeld = true ∧ t.clock = s.clock ∧ t.estop = s.estop ∧
    (∀ i, t.typeSlot i =
      { state := .absent, users := 0, faults := 0, active := none, waiting := none }) ∧
    t.board = { state := .noBoard, serial := 0, bypassLimit := 4, holdTime := 50 } ∧
    (∀ n, t.site n = none) ∧ t.period = .us1000 ∧
    (∀ z, t.holder z = none) ∧ t.queue = [] ∧
    (∀ h, t.monitor h =
      { state := .idle, claim := none, grantTime := none, slot := false, copy := none
        permit := false, stroke := none }) ∧
    (∀ h, t.permitOut h = false) ∧
    t.records = [] ∧ t.reserved = 0 ∧ t.attn = false ∧
    (∀ l, (t.link l).up = false ∧ (t.link l).out = [] ∧ (t.link l).tx = none ∧
      (t.link l).assembly = [] ∧ (t.link l).overrun = false) ∧
    (∀ h, (t.front h).corners.toList = List.replicate 4 { gain := 2048, held := 0, noiseRun := 0 } ∧
      (t.front h).noiseLimit = 1024 ∧ (t.front h).hysteresis = 50 ∧ (t.front h).stability = .ms100 ∧
      (t.front h).tare = { value := 0, candidate := 0, run := 0, state := .settling } ∧
      (t.front h).position = 0 ∧ (t.front h).homed = false ∧ (t.front h).encoderFault = false ∧
      (t.front h).periodFault = false ∧ (t.front h).heldCount = 0 ∧
      (t.front h).latest.gross = 0 ∧ (t.front h).latest.net = 0 ∧
      (t.front h).latest.position = 0 ∧ (t.front h).latest.tilt = none ∧
      (t.front h).latest.corners.toList = List.replicate 4
        { force := 0, saturated := false, noisy := false, noisyRun := false })) ∧
  (∀ s : State, s.resetHeld = true →
    (∀ phases : PerHead Phase, exec (.resetReleased phases) s = .next { s with
      resetHeld := false
      fronts :=
        ⟨{ s.front .h0 with phase := phases.h0 }, { s.front .h1 with phase := phases.h1 },
          { s.front .h2 with phase := phases.h2 }, { s.front .h3 with phase := phases.h3 }⟩ }) ∧
    (∀ h conv, exec (.sampleComplete h conv) s = .next s) ∧
    (∀ h seen, exec (.encoderTransition h seen) s = .next s)) ∧
  (∀ (phases : PerHead Phase) (s : State), s.resetHeld = false →
    exec (.resetReleased phases) s = .next s)

/-! ### Force and position sensing -/

/-- R7: the force of a corner that is not NOISY is the median times the gain over 4,096, rounded half
away from zero, of magnitude at most 8,388,480; a NOISY corner uses its held last value. -/
def Obligations.CornerForceRoundsHalfAwayFromZero : Prop :=
  ∀ (limit : Nat) (c : Corner) (v : Conversions), 1 ≤ c.gain → c.gain ≤ 65535 →
    (isNoisy limit v = false →
      (0 ≤ median v →
        4096 * cornerForce limit c v - 2048 ≤ median v * c.gain ∧
        median v * c.gain < 4096 * cornerForce limit c v + 2048) ∧
      (median v < 0 →
        4096 * cornerForce limit c v - 2048 < median v * c.gain ∧
        median v * c.gain ≤ 4096 * cornerForce limit c v + 2048) ∧
      (cornerForce limit c v).natAbs ≤ 8388480) ∧
    (isNoisy limit v = true → cornerForce limit c v = c.held)

/-- R3 to R6, R13: the median and the spread of a corner's sub-conversions, its classification, and
what it leaves of the held last value, the consecutive-noise run and the entry. -/
def Obligations.CornerIsClassified : Prop :=
  ∀ (limit : Nat) (c : Corner) (v : Conversions),
    let xs := [v.a.toInt, v.b.toInt, v.c.toInt]
    let after := cornerAfter limit c v
    let entry := cornerEntry limit c v
    (median v ∈ xs ∧ 2 ≤ xs.countP (fun x => decide (x ≤ median v)) ∧
      2 ≤ xs.countP (fun x => decide (median v ≤ x))) ∧
    ((∀ x ∈ xs, ∀ y ∈ xs, x - y ≤ spread v) ∧ (∃ x ∈ xs, ∃ y ∈ xs, x - y = spread v) ∧
      0 ≤ spread v ∧ spread v ≤ 1048575) ∧
    (entry.noisy = true ↔ (limit : Int) < spread v) ∧
    (entry.saturated = true ↔ ∃ x ∈ xs, x = -524288 ∨ x = 524287) ∧
    (entry.noisy = true → entry.force = c.held ∧ after.held = c.held ∧
      after.noiseRun = min (c.noiseRun + 1) 3) ∧
    (entry.noisy = false → after.noiseRun = 0) ∧
    (entry.noisy = false → entry.saturated = true → after.held = c.held) ∧
    (entry.noisy = false → entry.saturated = false → after.held = entry.force) ∧
    (entry.noisyRun = true ↔ after.noiseRun = 3) ∧
    entry.force = cornerForce limit c v ∧
    after.gain = c.gain

/-- R9: tilt is evaluated in APPROACH, ENGAGE, SEATING and HALTED, where gross force is at least the
tilt floor and above 0; it is the corner range times 1,000 over the gross force, rounded down. -/
def Obligations.TiltIsTheCornerRangePerMille : Prop :=
  ∀ (m : Monitor) (cs : PerCorner CornerEntry),
    let fs := [cs.c0.force, cs.c1.force, cs.c2.force, cs.c3.force]
    let evaluated := m.state = .approach ∨ m.state = .engage ∨ m.state = .seating ∨
      m.state = .halted
    (∀ w, m.copy = some w → evaluated → (w.fields.tiltFloor : Int) ≤ fs.sum → 0 < fs.sum →
      ∃ (i : Nat) (range : Int), tiltOf m cs = some i ∧
        (∀ x ∈ fs, ∀ y ∈ fs, x - y ≤ range) ∧ (∃ x ∈ fs, ∃ y ∈ fs, x - y = range) ∧
        i * fs.sum ≤ range * 1000 ∧ range * 1000 < (i + 1) * fs.sum) ∧
    (¬ evaluated → tiltOf m cs = none) ∧
    (∀ w, m.copy = some w → fs.sum < w.fields.tiltFloor ∨ fs.sum ≤ 0 → tiltOf m cs = none)

/-- R15: one step of the tare tracker. Its decision falls on the sample on which the run reaches N_s;
T is kept within the tare limit; and a sample completed in a stroke state leaves T as it is. -/
def Obligations.TareTrackerStep : Prop :=
  (∀ (t : Tare) (H N : Nat) (g : Int), t.run ≤ N →
    let u := t.step H N g
    let moved := (g - t.candidate).natAbs
    (H < moved → u = { t with candidate := g, run := 0, state := .settling }) ∧
    (moved ≤ H → t.run + 1 < N → u = { t with run := t.run + 1 }) ∧
    (moved ≤ H → t.run + 1 = N → 50000 < t.candidate.natAbs →
      u = { t with run := N, state := .outOfRange }) ∧
    (moved ≤ H → t.run + 1 = N → t.candidate.natAbs ≤ 50000 →
      u = { t with
        run := N, state := .stable
        value := if H < (t.candidate - t.value).natAbs then t.candidate else t.value }) ∧
    (moved ≤ H → t.run = N → u = t) ∧
    (t.value.natAbs ≤ 50000 → u.value.natAbs ≤ 50000)) ∧
  (∀ (s t : State) (h : Head) (conv : PerCorner Conversions),
    (s.monitor h).state.inStroke = true → exec (.sampleComplete h conv) s = .next t →
    (t.front h).tare.value = (s.front h).tare.value)

/-- R16: a restart sets the stability run to 0 and the state to SETTLING and leaves T and Q, in each
of its five cases; with the period unchanged there is none. -/
def Obligations.TareTrackerRestarts : Prop :=
  (∀ (f : FrontEnd) (p : Period) (st : HeadState) (r : SampleRecord), st.inStroke = false →
    r.anyNoisyRun = true ∨ r.anySaturated = true →
    f.track p st r = { f.tare with run := 0, state := .settling }) ∧
  (∀ (f : FrontEnd) (gains : PerCorner Nat) (noise hysteresis : Nat) (st : StabilityTime),
    (f.configure gains noise hysteresis st).tare = { f.tare with run := 0, state := .settling }) ∧
  (∀ (s : State) (p : Period) (h : Head), p ≠ s.period →
    ((s.setPeriod p).front h).tare = { (s.front h).tare with run := 0, state := .settling }) ∧
  (∀ s : State, s.setPeriod s.period = s) ∧
  (∀ (s : State) (h : Head) (c : Claim) (w : WorkingCopy) (k : Stroke) (cause : Cause)
    (further : List Cause), (s.monitor h).claim = some c → (s.monitor h).copy = some w →
    (s.monitor h).stroke = some k →
    ((s.abortStroke h cause further).state.front h).tare =
      { (s.front h).tare with run := 0, state := .settling } ∧
    ((s.giveVerdict h).state.front h).tare =
      { (s.front h).tare with run := 0, state := .settling })

/-- R1, R8, R13, R14, R101: a sample completed in IDLE, WAITING, ARMED or RETRACT is kept as the
latest sample record, steps or restarts the tare tracker, and is otherwise not acted on. -/
def Obligations.SampleOutsideAStroke : Prop :=
  ∀ (h : Head) (conv : PerCorner Conversions) (s : State), s.resetHeld = false →
    ((s.monitor h).state = .idle ∨ (s.monitor h).state = .waiting ∨ (s.monitor h).state = .armed ∨
      (s.monitor h).state = .retract) →
    let f := s.front h
    let entries := f.corners.zipWith (cornerEntry f.noiseLimit) conv
    let gross := entries.c0.force + entries.c1.force + entries.c2.force + entries.c3.force
    exec (.sampleComplete h conv) s = .next (s.setFront h { f with
      corners := f.corners.zipWith (cornerAfter f.noiseLimit) conv
      tare :=
        if entries.toList.any (fun e => e.noisyRun || e.saturated) then
          { f.tare with run := 0, state := .settling }
        else f.tare.step f.hysteresis (stabilitySamples s.period f) gross
      periodFault := false
      latest :=
        { head := h, corners := entries, gross := gross, net := gross - f.tare.value, tilt := none
          position := f.position, periodFault := f.periodFault } })

/-- R10, R11: one phase on in the downward order adds 1 to the position counter, one phase back takes
1, a change of both channels or a count past an end sets the encoder-fault flag and the period fault
indicator and leaves the counter. An observation of no change changes nothing (log 8). -/
def Obligations.EncoderCountsPhases : Prop :=
  ∀ (h : Head) (seen : Phase) (s : State), s.resetHeld = false →
    let f := s.front h
    let faulty := { f with phase := seen, encoderFault := true, periodFault := true }
    (seen = f.phase → exec (.encoderTransition h seen) s = .next s) ∧
    (seen = ⟨!f.phase.b, f.phase.a⟩ → f.position < 8388607 →
      exec (.encoderTransition h seen) s =
        .next (s.setFront h { f with phase := seen, position := f.position + 1 })) ∧
    (f.phase = ⟨!seen.b, seen.a⟩ → -8388608 < f.position →
      exec (.encoderTransition h seen) s =
        .next (s.setFront h { f with phase := seen, position := f.position - 1 })) ∧
    (seen = ⟨!f.phase.b, f.phase.a⟩ → f.position = 8388607 →
      exec (.encoderTransition h seen) s = .next (s.setFront h faulty)) ∧
    (f.phase = ⟨!seen.b, seen.a⟩ → f.position = -8388608 →
      exec (.encoderTransition h seen) s = .next (s.setFront h faulty)) ∧
    (seen = ⟨!f.phase.a, !f.phase.b⟩ →
      exec (.encoderTransition h seen) s = .next (s.setFront h faulty))

/-- R103: HOME in IDLE or WAITING, and its refusals. -/
def Obligations.HomeZeroesThePosition : Prop :=
  ∀ (h : Head) (tag : Byte) (payload : List Byte) (s : State), s.takes (.head h) = true →
    (payload ≠ [] → payload.length ≤ 250 → exec (.home h tag payload) s =
      .next (s.withReply (.head h) 16 tag .badLength [])) ∧
    ((s.monitor h).state = .idle ∨ (s.monitor h).state = .waiting →
      exec (.home h tag []) s = .next ((s.setFront h { s.front h with
        position := 0, homed := true, encoderFault := false, periodFault := false }).withReply
          (.head h) 16 tag .ok [0, 0, 0, 0])) ∧
    ((s.monitor h).state ≠ .idle → (s.monitor h).state ≠ .waiting →
      exec (.home h tag []) s = .next (s.withReply (.head h) 16 tag .headState []))

/-- R17, R18: CONFIGURE_HEAD on an IDLE head, its clamps, and its refusals. -/
def Obligations.ConfigureHeadReplacesTheConfiguration : Prop :=
  ∀ (tag : Byte) (s : State), s.takes .cell = true →
    (∀ payload : List Byte, payload.length ≠ 14 → payload.length ≤ 250 →
      exec (.configureHead tag payload) s = .next (s.withReply .cell 32 tag .badLength [])) ∧
    (∀ payload : List Byte, payload.length = 14 →
      3 < at8 payload 0 ∨ 3 < at8 payload 13 →
      exec (.configureHead tag payload) s = .next (s.withReply .cell 32 tag .badValue [])) ∧
    (∀ (h : Head) (g0 g1 g2 g3 noise hyst code : Nat) (stability : StabilityTime),
      g0 < 65536 → g1 < 65536 → g2 < 65536 → g3 < 65536 → noise < 65536 → hyst < 65536 →
      stabilityOf code = some stability →
      let payload := u8 (headNo h) ++ u16 g0 ++ u16 g1 ++ u16 g2 ++ u16 g3 ++ u16 noise ++ u16 hyst
        ++ u8 code
      let f := s.front h
      ((s.monitor h).state ≠ .idle →
        exec (.configureHead tag payload) s = .next (s.withReply .cell 32 tag .headState [])) ∧
      ((s.monitor h).state = .idle →
        exec (.configureHead tag payload) s = .next ((s.setFront h { f with
          corners :=
            ⟨{ f.corners.c0 with gain := max g0 1, held := 0 },
              { f.corners.c1 with gain := max g1 1, held := 0 },
              { f.corners.c2 with gain := max g2 1, held := 0 },
              { f.corners.c3 with gain := max g3 1, held := 0 }⟩
          noiseLimit := noise, hysteresis := min hyst 2000, stability := stability
          tare := { f.tare with run := 0, state := .settling } }).withReply .cell 32 tag
            (if g0 = 0 ∨ g1 = 0 ∨ g2 = 0 ∨ g3 = 0 ∨ 2000 < hyst then .clamped else .ok)
            (u8 (headNo h) ++ u16 (max g0 1) ++ u16 (max g1 1) ++ u16 (max g2 1) ++ u16 (max g3 1)
              ++ u16 noise ++ u16 (min hyst 2000) ++ u8 code))))

/-! ### The Envelope Library -/

/-- R178, with the most significant byte first (R176): the place of every field in the layout of
LOAD_TYPE; and read back, the layout gives the record. -/
def Obligations.TypeRecordLayoutRoundTrips : Prop :=
  ∀ (t : Fin 48) (r : TypeRecord), RecordFits r →
    let b := typeBytes t r
    b.length = 38 + 10 * r.groups.length ∧ recordOf b = r ∧
    at8 b 0 = t.val ∧ at32 b 1 = r.partCode.toNat ∧ at16 b 5 = r.pinTotal ∧
    at16 b 7 = r.contactThreshold ∧ at8 b 9 = r.confirmCount ∧ at16 b 10 = r.approachLimit ∧
    at8 b 12 = r.groups.length ∧ at16 b 13 = r.seatStart ∧ at16 b 15 = r.seatSearch ∧
    at16 b 17 = r.slopeThreshold ∧ at8 b 19 = r.seatWindow ∧ at32 b 20 = r.forceMax ∧
    at16 b 24 = r.overtravelMax ∧ at16 b 26 = r.dwell ∧ at16 b 28 = r.tiltLimit ∧
    at32 b 30 = r.tiltFloor ∧ at16 b 34 = r.stallTime ∧ at16 b 36 = r.strokeLimit ∧
    ∀ k g, r.groups[k]? = some g →
      at16 b (38 + 10 * k) = g.entry ∧ at16 b (40 + 10 * k) = g.pins ∧
      at16 b (42 + 10 * k) = g.fmin ∧ at16 b (44 + 10 * k) = g.fmax ∧
      at16 b (46 + 10 * k) = g.settle

/-- R23, R24: the refusals of LOAD_TYPE, in their order; each changes nothing. A record passes exactly
where the 24 checks hold; a failure names the lowest failing check, and for a check of the groups the
lowest failing group. That check 11 names group 1 is log 14. -/
def Obligations.LoadTypeRefusals : Prop :=
  (∀ r : TypeRecord, firstFailure r = none ↔ ∀ n, 1 ≤ n → n ≤ 24 → checkHolds r n) ∧
  (∀ (r : TypeRecord) (f : CheckFailure), firstFailure r = some f →
    1 ≤ f.check ∧ f.check ≤ 24 ∧ (∀ n, 1 ≤ n → n < f.check → checkHolds r n) ∧
    (f.group = 0 → ¬ recordCheck r f.check) ∧
    (∀ k, f.group = k + 1 → (∃ g, r.groups[k]? = some g ∧ ¬ groupCheck r.groups k g f.check) ∧
      ∀ j g, j < k → r.groups[j]? = some g → groupCheck r.groups j g f.check)) ∧
  (∀ (tag : Byte) (payload : List Byte) (s : State), s.takes .cell = true →
    payload.length ≤ 250 →
    (payload.length < 38 →
      exec (.loadType tag payload) s = .next (s.withReply .cell 40 tag .badLength [])) ∧
    (38 ≤ payload.length → 47 < at8 payload 0 →
      exec (.loadType tag payload) s = .next (s.withReply .cell 40 tag .badValue [])) ∧
    (38 ≤ payload.length → at8 payload 0 ≤ 47 → at8 payload 12 = 0 ∨ 8 < at8 payload 12 →
      exec (.loadType tag payload) s =
        .next (s.withReply .cell 40 tag .envelopeInvalid [1, 0])) ∧
    (38 ≤ payload.length → at8 payload 0 ≤ 47 → 1 ≤ at8 payload 12 → at8 payload 12 ≤ 8 →
      payload.length ≠ 38 + 10 * at8 payload 12 →
      exec (.loadType tag payload) s = .next (s.withReply .cell 40 tag .badLength [])) ∧
    (at8 payload 0 ≤ 47 → 1 ≤ at8 payload 12 → at8 payload 12 ≤ 8 →
      payload.length = 38 + 10 * at8 payload 12 →
      ∀ f, firstFailure (recordOf payload) = some f →
      exec (.loadType tag payload) s =
        .next (s.withReply .cell 40 tag .envelopeInvalid (u8 f.check ++ u8 f.group))))

/-- R25, R27: a sound record is placed by the type's state; where the type is READY afterwards the
claim queue is passed. -/
def Obligations.LoadTypePlacesTheRecord : Prop :=
  ∀ (tag : Byte) (t : Fin 48) (r : TypeRecord) (s : State), s.takes .cell = true →
    firstFailure r = none →
    let slot := s.typeSlot t
    let stored : StoredRecord := { fields := r, flips := [] }
    let ready := (s.setType t { slot with
      state := .ready, active := some stored, faults := 0 }).pass none
    let held := s.setType t { slot with state := .draining, waiting := some stored }
    (slot.state = .absent ∨ ((slot.state = .ready ∨ slot.state = .broken) ∧ slot.users = 0) →
      exec (.loadType tag (typeBytes t r)) s = .next (ready.withReply .cell 40 tag .ok
        (u8 t.val ++ u8 (ready.typeSlot t).state.code ++ u8 (ready.typeSlot t).users
          ++ u8 ready.pendingCount))) ∧
    ((slot.state = .ready ∨ slot.state = .broken) ∧ 1 ≤ slot.users ∨ slot.state = .draining →
      exec (.loadType tag (typeBytes t r)) s = .next (held.withReply .cell 40 tag .ok
        (u8 t.val ++ [2] ++ u8 slot.users ++ u8 held.pendingCount)))

/-- R37: PURGE_TYPE, its refusals, and that a purge that passes finds no users. -/
def Obligations.PurgeTypeMakesTheTypeAbsent : Prop :=
  ∀ (tag : Byte) (s : State), s.takes .cell = true →
    (∀ payload : List Byte, payload.length ≠ 1 → payload.length ≤ 250 →
      exec (.purgeType tag payload) s = .next (s.withReply .cell 41 tag .badLength [])) ∧
    (∀ b : Byte, 47 < b.toNat →
      exec (.purgeType tag [b]) s = .next (s.withReply .cell 41 tag .badValue [])) ∧
    (∀ t : Fin 48, (s.typeSlot t).state = .absent →
      exec (.purgeType tag (u8 t.val)) s = .next (s.withReply .cell 41 tag .typeAbsent [])) ∧
    (∀ t : Fin 48, (s.typeSlot t).state = .draining →
      exec (.purgeType tag (u8 t.val)) s = .next (s.withReply .cell 41 tag .updatePending [])) ∧
    (∀ (t : Fin 48) (n : Fin 96) (e : SiteEntry),
      (s.typeSlot t).state = .ready ∨ (s.typeSlot t).state = .broken → s.site n = some e →
      e.typeNo = t →
      exec (.purgeType tag (u8 t.val)) s = .next (s.withReply .cell 41 tag .typeInUse [])) ∧
    (∀ t : Fin 48, (s.typeSlot t).state = .ready ∨ (s.typeSlot t).state = .broken →
      (∀ n e, s.site n = some e → e.typeNo ≠ t) →
      exec (.purgeType tag (u8 t.val)) s = .next ((s.setType t
        { state := .absent, users := 0, faults := 0, active := none, waiting := none }).withReply
          .cell 41 tag .ok (u8 t.val)) ∧
      (UserLaw s → (s.typeSlot t).users = 0))

/-- R33: a read corrects each word with one flipped bit, writes it back and counts it, to at most 255,
whether the read succeeds or fails; a word with more is left, and the read fails (log 11). That one
MEMORY_WORD_FAULT names a record, a word and a bit, flips that one bit and changes nothing else is
log 25. -/
def Obligations.RecordIntegrity : Prop :=
  (∀ r : StoredRecord, r.InOrder →
    (r.readable = true ↔ r.sound) ∧
    (∀ word bit, (word, bit) ∈ r.corrected.flips ↔
      (word, bit) ∈ r.flips ∧ r.flippedIn word ≠ 1) ∧
    r.corrected.fields = r.fields ∧
    (∃ words : List Nat, words.Nodup ∧ (∀ w, w ∈ words ↔ r.flippedIn w = 1) ∧
      r.correctable = words.length) ∧
    (r.readable = true → r.corrected.flips = [] ∧ r.correctable = r.flips.length) ∧
    (∀ word bit, (r.flip word bit).InOrder ∧ (r.flip word bit).fields = r.fields ∧
      ∀ w b, (w, b) ∈ (r.flip word bit).flips ↔
        ((w, b) = (word, bit) ∧ (w, b) ∉ r.flips) ∨ ((w, b) ≠ (word, bit) ∧ (w, b) ∈ r.flips))) ∧
  (∀ count n, addFaults count n = min (count + n) 255) ∧
  (∀ (t : Fin 48) (word bit : Nat) (s : State),
    exec (.memoryWordFault t .active word bit) s = .next (s.setType t { s.typeSlot t with
      active := (s.typeSlot t).active.map fun r => r.flip word bit }) ∧
    exec (.memoryWordFault t .pending word bit) s = .next (s.setType t { s.typeSlot t with
      waiting := (s.typeSlot t).waiting.map fun r => r.flip word bit }))

/-- R38, with R33 to R35: READ_TYPE reports and repairs; an ABSENT or BROKEN type is not read; a READY
type found unreadable, and a DRAINING type both of whose records are, become BROKEN, the claims waiting
on the type are dropped with TYPE_BROKEN and a drop brings a pass (R71, R80). The reply of a read that
fails is the status alone (log 13). That a DRAINING type, repaired or broken, keeps its fault count raised
by the words corrected in both records, and that a BROKEN type keeps its damaged active record, is the
model's reading (log 12). -/
def Obligations.ReadTypeReportsAndRepairs : Prop :=
  ∀ (tag : Byte) (t : Fin 48) (s : State), s.takes .cell = true →
    let slot := s.typeSlot t
    let waiting := s.queue.filter fun e => s.typeAt e.claim.site == some t
    let reported := fun broken : State =>
      if waiting = [] then broken else (broken.dropAll none .typeBroken waiting).pass none
    (∀ payload : List Byte, payload.length ≠ 1 → payload.length ≤ 250 →
      exec (.readType tag payload) s = .next (s.withReply .cell 42 tag .badLength [])) ∧
    (∀ b : Byte, 47 < b.toNat →
      exec (.readType tag [b]) s = .next (s.withReply .cell 42 tag .badValue [])) ∧
    (slot.state = .absent →
      exec (.readType tag (u8 t.val)) s = .next (s.withReply .cell 42 tag .typeAbsent [])) ∧
    (slot.state = .broken →
      exec (.readType tag (u8 t.val)) s = .next (s.withReply .cell 42 tag .typeBroken
        (u8 t.val ++ [3] ++ u8 slot.users ++ u8 slot.faults))) ∧
    (∀ a, slot.state = .ready ∨ slot.state = .draining → slot.active = some a → a.InOrder →
      a.sound →
      exec (.readType tag (u8 t.val)) s = .next ((s.setType t { slot with
        active := some { a with flips := [] }
        faults := min (slot.faults + a.flips.length) 255 }).withReply .cell 42 tag .ok
          (u8 t.val ++ u8 slot.state.code ++ u8 slot.users
            ++ u8 (min (slot.faults + a.flips.length) 255) ++ flagByte slot.waiting.isSome
            ++ typeBytes t a.fields))) ∧
    (∀ a, slot.state = .ready → slot.active = some a → ¬ a.sound →
      exec (.readType tag (u8 t.val)) s = .next ((reported (s.setType t { slot with
        state := .broken, active := some a.corrected
        faults := min (slot.faults + a.correctable) 255 })).withReply .cell 42 tag
          .typeBroken [])) ∧
    (∀ a p, slot.state = .draining → slot.active = some a → slot.waiting = some p → ¬ a.sound →
      ¬ p.sound →
      exec (.readType tag (u8 t.val)) s = .next ((reported (s.setType t { slot with
        state := .broken, active := some a.corrected, waiting := none
        faults := min (min (slot.faults + a.correctable) 255 + p.correctable) 255 })).withReply
          .cell 42 tag .typeBroken [])) ∧
    (∀ a p, slot.state = .draining → slot.active = some a → slot.waiting = some p → ¬ a.sound →
      p.InOrder → p.sound →
      exec (.readType tag (u8 t.val)) s = .next ((s.setType t { slot with
        active := some { p with flips := [] }, waiting := some { p with flips := [] }
        faults := min (min (slot.faults + a.correctable) 255 + p.flips.length) 255 }).withReply
          .cell 42 tag .ok
          (u8 t.val ++ [2] ++ u8 slot.users
            ++ u8 (min (min (slot.faults + a.correctable) 255 + p.flips.length) 255) ++ [1]
            ++ typeBytes t p.fields)))

/-- R28, R29, R36: a user released counts one off; the last user of a DRAINING type brings the
installation of its pending record, or makes the type BROKEN and drops the claims that wait on it.
The count and the former active record kept after a failed installing read are log 12. -/
def Obligations.LastReleaseInstallsThePending : Prop :=
  ∀ (t : Fin 48) (s : State),
    let slot := s.typeSlot t
    (slot.state ≠ .draining ∨ slot.users ≠ 1 →
      s.releaseUser t =
        { state := s.setType t { slot with users := slot.users - 1 }, due := false }) ∧
    (∀ p, slot.state = .draining → slot.users = 1 → slot.waiting = some p → p.InOrder → p.sound →
      s.releaseUser t =
        { state := s.setType t
            { state := .ready, users := 0, faults := min p.flips.length 255
              active := some { p with flips := [] }, waiting := none }
          due := true }) ∧
    (∀ p, slot.state = .draining → slot.users = 1 → slot.waiting = some p → ¬ p.sound →
      let broken := s.setType t
        { state := .broken, users := 0, faults := min (slot.faults + p.correctable) 255
          active := slot.active, waiting := none }
      (s.releaseUser t).state = broken.dropAll none .typeBroken
        (s.queue.filter fun e => s.typeAt e.claim.site == some t) ∧
      ((s.releaseUser t).due = true ↔ ∃ e ∈ s.queue, s.typeAt e.claim.site = some t))

/-! ### Boards and sites -/

/-- R43: BOARD_BEGIN, its clamps, and its refusals. -/
def Obligations.BoardBeginOpensABoard : Prop :=
  ∀ (tag : Byte) (s : State), s.takes .cell = true →
    (∀ payload : List Byte, payload.length ≠ 7 → payload.length ≤ 250 →
      exec (.boardBegin tag payload) s = .next (s.withReply .cell 33 tag .badLength [])) ∧
    (∀ payload : List Byte, payload.length = 7 → 3 < at8 payload 6 →
      exec (.boardBegin tag payload) s = .next (s.withReply .cell 33 tag .badValue [])) ∧
    (∀ (serial : BitVec 32) (bypass hold code : Nat) (p : Period), bypass < 256 → hold < 256 →
      periodOf code = some p →
      let payload := u32 serial.toNat ++ u8 bypass ++ u8 hold ++ u8 code
      (s.board.state ≠ .noBoard ∨
          (∃ h, (s.monitor h).state = .halted ∨ (s.monitor h).state = .retract) →
        exec (.boardBegin tag payload) s = .next (s.withReply .cell 33 tag .boardBusy [])) ∧
      (s.board.state = .noBoard →
        (∀ h, (s.monitor h).state ≠ .halted ∧ (s.monitor h).state ≠ .retract) →
        exec (.boardBegin tag payload) s = .next ({ s with
          period := p
          fronts := if p = s.period then s.fronts else
            ⟨(s.front .h0).restartTare, (s.front .h1).restartTare, (s.front .h2).restartTare,
              (s.front .h3).restartTare⟩
          board :=
            { state := .isOpen, serial := serial, bypassLimit := min bypass 15
              holdTime := max hold 1 }
          sites := Vector.replicate 96 none }.withReply .cell 33 tag
            (if 15 < bypass ∨ hold = 0 then .clamped else .ok)
            (u32 serial.toNat ++ u8 (min bypass 15) ++ u8 (max hold 1) ++ u8 code))))

/-- R44: BOARD_END drops the waiting claims with BOARD_CLOSED, sends the summary, and closes the
board; its refusals; and that the five counts add up to the sites defined. -/
def Obligations.BoardEndClosesTheBoard : Prop :=
  ∀ (tag : Byte) (s : State), s.takes .cell = true →
    (∀ payload : List Byte, payload ≠ [] → payload.length ≤ 250 →
      exec (.boardEnd tag payload) s = .next (s.withReply .cell 34 tag .badLength [])) ∧
    (s.board.state = .noBoard →
      exec (.boardEnd tag []) s = .next (s.withReply .cell 34 tag .noBoard [])) ∧
    (s.board.state = .aborting →
      exec (.boardEnd tag []) s = .next (s.withReply .cell 34 tag .boardBusy [])) ∧
    (s.board.state = .isOpen →
      (∃ h, (s.monitor h).state ≠ .idle ∧ (s.monitor h).state ≠ .waiting) →
      exec (.boardEnd tag []) s = .next (s.withReply .cell 34 tag .boardBusy [])) ∧
    (s.board.state = .isOpen → (s.queue.map (·.head)).Nodup →
      (∀ h, (s.monitor h).state = .idle ∨ (s.monitor h).state = .waiting) →
      ∃ t, exec (.boardEnd tag []) s = .next t ∧
        t.queue = [] ∧ (∀ n, t.site n = none) ∧
        t.board = { state := .noBoard, serial := 0, bypassLimit := 4, holdTime := 50 } ∧
        (∀ e ∈ s.queue, t.monitor e.head = Monitor.idle ∧
          t.link (.head e.head) = (s.link (.head e.head)).offer
            (eventFrame 65 (u8 e.claim.site.val ++ [2]))) ∧
        (∀ h, (∀ e ∈ s.queue, e.head ≠ h) → t.monitor h = s.monitor h ∧
          t.link (.head h) = s.link (.head h)) ∧
        t.cellLink = (s.withReply .cell 34 tag .ok
          (u32 s.board.serial.toNat
            ++ u8 (s.sites.toList.countP (·.isSome))
            ++ u8 (s.sites.toList.countP fun e => e.any (·.state == .empty))
            ++ u8 (s.sites.toList.countP fun e => e.any (·.state == .loaded))
            ++ u8 (s.sites.toList.countP fun e => e.any (·.state.isSeated))
            ++ u8 (s.sites.toList.countP fun e => e.any (·.state == .rejected))
            ++ u8 (s.sites.toList.countP fun e => e.any (·.state == .lockedOut)))).cellLink ∧
        t.library = s.library ∧ t.zones = s.zones ∧ t.records = s.records ∧
        t.fronts = s.fronts ∧ t.period = s.period ∧ t.estop = s.estop ∧ t.clock = s.clock ∧
        t.resetHeld = s.resetHeld ∧
        (SiteLaw s → s.sites.toList.countP (·.isSome) =
          s.sites.toList.countP (fun e => e.any (·.state == .empty))
            + s.sites.toList.countP (fun e => e.any (·.state == .loaded))
            + s.sites.toList.countP (fun e => e.any (·.state.isSeated))
            + s.sites.toList.countP (fun e => e.any (·.state == .rejected))
            + s.sites.toList.countP (fun e => e.any (·.state == .lockedOut))))

/-- R45, R139, R144: BOARD_ABORT on an OPEN board ends every claim and stroke, and releases their users
(R28, R29, R36, R81); the board is ABORTING while a head is HALTED or RETRACT and closed otherwise. In
ABORTING it is answered and does nothing else, and in NO_BOARD it is refused. The fault count and the
former active record kept after a failed installing read are the model's (log 12), and so is that the
clock stays (log 2). -/
def Obligations.BoardAbortEndsEverything : Prop :=
  ∀ (tag : Byte) (s : State), s.takes .cell = true →
    (∀ payload : List Byte, payload ≠ [] → payload.length ≤ 250 →
      exec (.boardAbort tag payload) s = .next (s.withReply .cell 35 tag .badLength [])) ∧
    (s.board.state = .noBoard →
      exec (.boardAbort tag []) s = .next (s.withReply .cell 35 tag .noBoard [])) ∧
    (s.board.state = .aborting →
      exec (.boardAbort tag []) s = .next (s.withReply .cell 35 tag .ok [2])) ∧
    (s.board.state = .isOpen → SiteLaw s →
      let stays := ∃ h, (s.monitor h).state.inStroke = true ∨
        (s.monitor h).state = .halted ∨ (s.monitor h).state = .retract
      ∃ t, exec (.boardAbort tag []) s = .next t ∧ EndedBy .boardAbort .boardAbort s t ∧
        t.estop = s.estop ∧
        (stays → t.board = { s.board with state := .aborting } ∧
          (∀ n, t.site n = (s.site n).map (siteEnded .boardAbort s)) ∧
          t.cellLink = (s.withReply .cell 35 tag .ok [2]).cellLink) ∧
        (¬ stays →
          t.board = { state := .noBoard, serial := 0, bypassLimit := 4, holdTime := 50 } ∧
          (∀ n, t.site n = none) ∧
          t.cellLink = (s.withReply .cell 35 tag .ok [0]).cellLink))

/-- R50: SITE_DEFINE, and its refusals in their order. The order in which the keep-out set is kept
has no meaning (log 21). -/
def Obligations.SiteDefineMakesTheSiteEmpty : Prop :=
  ∀ (tag : Byte) (s : State), s.takes .cell = true →
    (∀ payload : List Byte, payload.length < 7 →
      exec (.siteDefine tag payload) s = .next (s.withReply .cell 36 tag .badLength [])) ∧
    (∀ payload : List Byte, 7 ≤ payload.length → payload.length ≤ 250 →
      at8 payload 6 = 0 ∨ 6 < at8 payload 6 →
      exec (.siteDefine tag payload) s = .next (s.withReply .cell 36 tag .badValue [])) ∧
    (∀ payload : List Byte, 7 ≤ payload.length → payload.length ≤ 250 → 1 ≤ at8 payload 6 →
      at8 payload 6 ≤ 6 → payload.length ≠ 7 + at8 payload 6 →
      exec (.siteDefine tag payload) s = .next (s.withReply .cell 36 tag .badLength [])) ∧
    (∀ (n t : Byte) (x y : Nat) (zs : List Byte), x < 65536 → y < 65536 → 1 ≤ zs.length →
      zs.length ≤ 6 →
      let command := Instr.siteDefine tag ([n, t] ++ u16 x ++ u16 y ++ u8 zs.length ++ zs)
      let valid := t.toNat ≤ 47 ∧ (∀ z ∈ zs, z.toNat ≤ 31) ∧ zs.Nodup
      (s.board.state = .noBoard →
        exec command s = .next (s.withReply .cell 36 tag .noBoard [])) ∧
      (s.board.state = .aborting →
        exec command s = .next (s.withReply .cell 36 tag .boardBusy [])) ∧
      (s.board.state = .isOpen → 95 < n.toNat →
        exec command s = .next (s.withReply .cell 36 tag .badSite [])) ∧
      (s.board.state = .isOpen → n.toNat ≤ 95 → ¬ valid →
        exec command s = .next (s.withReply .cell 36 tag .badValue [])) ∧
      (∀ (site : Fin 96) (ty : Fin 48), s.board.state = .isOpen → site.val = n.toNat →
        ty.val = t.toNat → valid →
        ((s.typeSlot ty).state = .absent →
          exec command s = .next (s.withReply .cell 36 tag .typeAbsent [])) ∧
        (∀ e, (s.typeSlot ty).state ≠ .absent → s.site site = some e → e.state ≠ .empty →
          exec command s = .next (s.withReply .cell 36 tag .siteState [])) ∧
        ((s.typeSlot ty).state ≠ .absent → (∀ e, s.site site = some e → e.state = .empty) →
          ∃ keepOut : List (Fin 32), keepOut.Nodup ∧
            (∀ z : Fin 32, z ∈ keepOut ↔ ∃ b ∈ zs, b.toNat = z.val) ∧
            exec command s = .next ((s.setSite site (some
              { typeNo := ty, x := x, y := y, keepOut := keepOut, state := .empty, attempts := 0
                last := none })).withReply .cell 36 tag .ok
                  ([n, 1] ++ u8 (s.typeSlot ty).state.code)))))

/-- R51: LOAD, and its refusals. -/
def Obligations.LoadMakesTheSiteLoaded : Prop :=
  ∀ (tag : Byte) (s : State), s.takes .cell = true →
    (∀ payload : List Byte, payload.length ≠ 1 → payload.length ≤ 250 →
      exec (.load tag payload) s = .next (s.withReply .cell 37 tag .badLength [])) ∧
    (∀ n : Byte,
      (s.board.state = .noBoard →
        exec (.load tag [n]) s = .next (s.withReply .cell 37 tag .noBoard [])) ∧
      (s.board.state = .aborting →
        exec (.load tag [n]) s = .next (s.withReply .cell 37 tag .boardBusy [])) ∧
      (s.board.state = .isOpen → 95 < n.toNat →
        exec (.load tag [n]) s = .next (s.withReply .cell 37 tag .badSite [])) ∧
      (∀ site : Fin 96, s.board.state = .isOpen → site.val = n.toNat →
        ((∀ e, s.site site = some e → e.state ≠ .empty) →
          exec (.load tag [n]) s = .next (s.withReply .cell 37 tag .siteState [])) ∧
        (∀ e, s.site site = some e → e.state = .empty →
          exec (.load tag [n]) s =
            .next ((s.setSite site (some { e with state := .loaded })).withReply .cell 37 tag .ok
              [n, 2]) ∧
          (SitesSound s → e.attempts = 0 ∧ e.last = none))))

/-- R52, with R80 and R81: UNLOAD makes a site EMPTY; the claims on it end with SITE_CHANGED, the armed
one first, its user released whatever the state of its type (R28, R29, R36), and an end of a claim
brings a pass; and its refusals. -/
def Obligations.UnloadMakesTheSiteEmpty : Prop :=
  (∀ (tag : Byte) (s : State), s.takes .cell = true →
    (∀ payload : List Byte, payload.length ≠ 1 → payload.length ≤ 250 →
      exec (.unload tag payload) s = .next (s.withReply .cell 38 tag .badLength [])) ∧
    (∀ n : Byte,
      (s.board.state = .noBoard →
        exec (.unload tag [n]) s = .next (s.withReply .cell 38 tag .noBoard [])) ∧
      (s.board.state = .aborting →
        exec (.unload tag [n]) s = .next (s.withReply .cell 38 tag .boardBusy [])) ∧
      (s.board.state = .isOpen → 95 < n.toNat →
        exec (.unload tag [n]) s = .next (s.withReply .cell 38 tag .badSite [])))) ∧
  (∀ (tag : Byte) (n : Byte) (site : Fin 96) (s : State), s.takes .cell = true →
    site.val = n.toNat → s.board.state = .isOpen →
    let emptied := fun e : SiteEntry => { e with state := .empty, attempts := 0, last := none }
    let waiting := s.queue.filter fun q => q.claim.site == site
    ((∀ e, s.site site = some e →
        e.state = .empty ∨ ∃ h g, e.state = .pressing h g) →
      exec (.unload tag [n]) s = .next (s.withReply .cell 38 tag .siteState [])) ∧
    (∀ e, s.site site = some e →
      e.state = .loaded ∨ (∃ d, e.state = .seated d) ∨ e.state = .rejected ∨
        e.state = .lockedOut →
      let s' := (s.setSite site (some (emptied e))).withReply .cell 38 tag .ok [n, 1, 0]
      (waiting = [] → exec (.unload tag [n]) s = .next s') ∧
      (waiting ≠ [] →
        exec (.unload tag [n]) s = .next ((s'.dropAll none .siteChanged waiting).pass none))) ∧
    (∀ e h g c w, s.site site = some e → e.state = .claimed h g → (s.monitor h).claim = some c →
      c.site = site → (s.monitor h).copy = some w →
      let released := ({ s with
        sites := s.sites.set site (some (emptied e))
        zones := Vector.ofFn fun z => if s.holder z = some h then none else s.holder z
        }.withReply .cell 38 tag .ok [n, 1, 1]).releaseUser w.typeNo
      let revoked := (released.state.setMonitor h Monitor.idle).offer (.head h)
        (eventFrame 67 [n, 0])
      exec (.unload tag [n]) s = .next ((revoked.dropAll none .siteChanged
        (revoked.queue.filter fun q => q.claim.site == site)).pass none)))

/-- R59, R60: what each outcome makes of a PRESSING site; any other site is left (R61). -/
def Obligations.OutcomesAreApplied : Prop :=
  (∀ (e : SiteEntry) (h : Head) (g : GrantFrom), e.state = .pressing h g →
    (∀ d, e.apply (.pass d) = { e with
      state := .seated d, attempts := e.attempts + 1, last := some .pass }) ∧
    (∀ f, e.apply (.reject f) = { e with
      state := if e.attempts + 1 < 3 then .rejected else .lockedOut
      attempts := e.attempts + 1, last := some (.reject f) }) ∧
    (∀ cause contact, contact = true ∨ cause = .noContact →
      e.apply (.abort cause contact) = { e with
        state := if e.attempts + 1 < 3 then .rejected else .lockedOut
        attempts := e.attempts + 1, last := some (.abort cause) }) ∧
    (∀ cause, cause ≠ .noContact → e.apply (.abort cause false) = { e with
      state := match g with
        | .loaded => .loaded
        | .rejected => .rejected })) ∧
  (∀ (e : SiteEntry) (o : Ending), (∀ h g, e.state ≠ .pressing h g) → e.apply o = e)

/-! ### Claims -/

/-- R66: the refusals of CLAIM in their order; each changes nothing. -/
def Obligations.ClaimRefusals : Prop :=
  ∀ (h : Head) (tag : Byte) (s : State), s.takes (.head h) = true →
    let answers := fun (command : Instr) (st : Status) =>
      exec command s = .next (s.withReply (.head h) 17 tag st [])
    (∀ payload : List Byte, payload.length ≠ 3 → payload.length ≤ 250 →
      answers (.claim h tag payload) .badLength) ∧
    (∀ n w r : Byte, 1 < w.toNat ∨ 1 < r.toNat → answers (.claim h tag [n, w, r]) .badValue) ∧
    (∀ n w r : Byte, w.toNat ≤ 1 → r.toNat ≤ 1 →
      let command := Instr.claim h tag [n, w, r]
      (s.board.state = .noBoard → answers command .noBoard) ∧
      (s.board.state = .aborting → answers command .boardBusy) ∧
      (s.board.state = .isOpen → s.estop = true → answers command .estopActive) ∧
      (s.board.state = .isOpen → s.estop = false → (s.monitor h).state ≠ .idle →
        answers command .headState) ∧
      (s.board.state = .isOpen → s.estop = false → (s.monitor h).state = .idle →
        (95 < n.toNat → answers command .badSite) ∧
        (∀ site : Fin 96, site.val = n.toNat →
          (¬ (∃ e, s.site site = some e ∧
              (r.toNat = 0 ∧ e.state = .loaded ∨
                r.toNat = 1 ∧ e.state = .rejected ∧ e.last = some (.abort .depthLimit) ∧
                  e.attempts < 3)) → answers command .siteState) ∧
          (∀ e, s.site site = some e →
            (r.toNat = 0 ∧ e.state = .loaded ∨
              r.toNat = 1 ∧ e.state = .rejected ∧ e.last = some (.abort .depthLimit) ∧
                e.attempts < 3) →
            (s.typeSlot e.typeNo).state = .broken → answers command .typeBroken))))

/-- R67, R69, R73: a claim that finds no other waiting, its site in the state it requires, its type
READY and readable, its zones and a slot free, is granted at once, whether or not it asks to wait;
GRANTED follows the reply. -/
def Obligations.LoneClaimIsGranted : Prop :=
  ∀ (h : Head) (tag n : Byte) (wait restrike : Bool) (site : Fin 96) (e : SiteEntry)
    (a : StoredRecord) (s : State), s.takes (.head h) = true → site.val = n.toNat →
    s.queue = [] → s.board.state = .isOpen → s.estop = false → s.monitor h = Monitor.idle →
    s.site site = some e →
    (restrike = false ∧ e.state = .loaded ∨
      restrike = true ∧ e.state = .rejected ∧ e.last = some (.abort .depthLimit) ∧
        e.attempts < 3) →
    (s.typeSlot e.typeNo).state = .ready → (s.typeSlot e.typeNo).active = some a → a.InOrder →
    a.sound → (∀ z ∈ e.keepOut, s.holder z = none) → s.records.length + s.reserved < 64 →
    exec (.claim h tag ([n] ++ flagByte wait ++ flagByte restrike)) s = .next (({ s with
      library := s.library.set e.typeNo { s.typeSlot e.typeNo with
        users := (s.typeSlot e.typeNo).users + 1
        active := some { a with flips := [] }
        faults := min ((s.typeSlot e.typeNo).faults + a.flips.length) 255 }
      zones := Vector.ofFn fun z => if z ∈ e.keepOut then some h else s.holder z
      sites := s.sites.set site (some { e with
        state := .claimed h (if restrike then .rejected else .loaded) })
      monitors := s.monitors.set h
        { state := .armed, claim := some { site := site, restrike := restrike }
          grantTime := some s.clock, slot := true
          copy := some { typeNo := e.typeNo, fields := a.fields }
          permit := false, stroke := none } }.withReply (.head h) 17 tag .ok [n, 2, 0, 0]).offer
        (.head h) (eventFrame 64 ([n] ++ u8 e.typeNo.val ++ u32 a.fields.partCode.toNat
          ++ flagByte restrike ++ u8 s.board.holdTime)))

/-- R67, R68, R69, R74: a claim that finds no other waiting and cannot be granted waits, at position
1, where it asked to; otherwise it is refused with the first missing condition. Where the read fails,
the type is BROKEN and the claim is ended. -/
def Obligations.LoneClaimWaitsOrIsRefused : Prop :=
  ∀ (h : Head) (tag n : Byte) (restrike : Bool) (site : Fin 96) (e : SiteEntry) (s : State),
    s.takes (.head h) = true → site.val = n.toNat → s.queue = [] → s.board.state = .isOpen →
    s.estop = false → s.monitor h = Monitor.idle → s.site site = some e →
    (restrike = false ∧ e.state = .loaded ∨
      restrike = true ∧ e.state = .rejected ∧ e.last = some (.abort .depthLimit) ∧
        e.attempts < 3) →
    let slot := s.typeSlot e.typeNo
    let waiting := Instr.claim h tag ([n, 1] ++ flagByte restrike)
    let atOnce := Instr.claim h tag ([n, 0] ++ flagByte restrike)
    let zoneHeld := ∃ z ∈ e.keepOut, ∃ h', s.holder z = some h'
    let full := 64 ≤ s.records.length + s.reserved
    (slot.state = .draining ∨ slot.state = .ready ∧ (zoneHeld ∨ full) →
      exec waiting s = .next ({ s with
        queue := [{ head := h, claim := { site := site, restrike := restrike }, bypass := 0 }]
        monitors := s.monitors.set h { Monitor.idle with state := .waiting } }.withReply (.head h)
          17 tag .ok [n, 1, 1, 1])) ∧
    (slot.state = .draining →
      exec atOnce s = .next (s.withReply (.head h) 17 tag .typeDraining [])) ∧
    (slot.state = .ready → zoneHeld →
      exec atOnce s = .next (s.withReply (.head h) 17 tag .zoneBusy [])) ∧
    (slot.state = .ready → ¬ zoneHeld → full →
      exec atOnce s = .next (s.withReply (.head h) 17 tag .noRecordSpace [])) ∧
    (∀ a, slot.state = .ready → ¬ zoneHeld → ¬ full → slot.active = some a → ¬ a.sound →
      let broken := s.setType e.typeNo { slot with
        state := .broken, active := some a.corrected
        faults := min (slot.faults + a.correctable) 255 }
      exec atOnce s = .next (broken.withReply (.head h) 17 tag .typeBroken []) ∧
      exec waiting s = .next ((broken.withReply (.head h) 17 tag .ok [n, 0, 0, 0]).offer (.head h)
        (eventFrame 65 [n, 1])))

/-- R69, R70, R72: a claim goes ahead of an older one that a held zone or a DRAINING type blocks and that
shares a zone with it, raising the older one's bypass count by 1; where the older one's count equals
the bypass limit, the younger is not granted: it waits behind, or is refused with ZONE_BUSY.
R56, R70, R73, R74, R80: what the pass does with an entry: it drops one whose site no longer meets its
requirement, leaves one that is not grantable, and grants one that is, dropping the other claims for
the same site with SITE_CHANGED and raising the older entries that share a zone; where the read fails,
the type is BROKEN and its claims are dropped. A no-wait claim dropped in its own pass is told nothing
(R68). R70: the pass takes the entries that stood in the queue when it began, oldest first, each on
what the one before it left; R67, R68: a claim passes the queue with its own entry at the young end, and
one not to wait that this pass does not grant is removed and answered with the first missing condition,
or, where the pass dropped it, with SITE_STATE or TYPE_BROKEN. The layout of the reply to CLAIM is
log 17. -/
def Obligations.BypassLimitGuardsOlderClaims : Prop :=
  (∀ (h : Head) (tag n : Byte) (wait restrike : Bool) (site : Fin 96) (e eo : SiteEntry)
    (a : StoredRecord) (o : QueueEntry) (s : State),
    s.takes (.head h) = true → site.val = n.toNat → s.queue = [o] → o.head ≠ h →
    o.claim.site ≠ site → s.board.state = .isOpen → s.estop = false →
    s.monitor h = Monitor.idle → s.site site = some e →
    (restrike = false ∧ e.state = .loaded ∨
      restrike = true ∧ e.state = .rejected ∧ e.last = some (.abort .depthLimit) ∧
        e.attempts < 3) →
    (s.typeSlot e.typeNo).state = .ready → (s.typeSlot e.typeNo).active = some a → a.InOrder →
    a.sound → (∀ z ∈ e.keepOut, s.holder z = none) → s.records.length + s.reserved < 64 →
    s.site o.claim.site = some eo → s.meets o.claim = true →
    ((∃ z ∈ eo.keepOut, ∃ h', s.holder z = some h') ∨ (s.typeSlot eo.typeNo).state = .draining) →
    (∃ z ∈ eo.keepOut, z ∈ e.keepOut) →
    let command := Instr.claim h tag ([n] ++ flagByte wait ++ flagByte restrike)
    (o.bypass < s.board.bypassLimit → ∃ t, exec command s = .next t ∧
      t.queue = [{ o with bypass := o.bypass + 1 }] ∧ (t.monitor h).state = .armed ∧
      t.site site = some { e with
        state := .claimed h (if restrike then .rejected else .loaded) } ∧
      (∀ z, t.holder z = if z ∈ e.keepOut then some h else s.holder z)) ∧
    (o.bypass = s.board.bypassLimit → wait = false →
      exec command s = .next (s.withReply (.head h) 17 tag .zoneBusy [])) ∧
    (o.bypass = s.board.bypassLimit → wait = true →
      exec command s = .next ({ s with
        queue := [o, { head := h, claim := { site := site, restrike := restrike }, bypass := 0 }]
        monitors := s.monitors.set h { Monitor.idle with state := .waiting } }.withReply (.head h)
          17 tag .ok [n, 1, 1, 2]))) ∧
  (∀ (arrival : Option Head) (e : QueueEntry) (s : State),
    let after := s.passEntry arrival e
    let drop := fun (reason : Byte) (s' : State) (d : QueueEntry) =>
      let gone : State := { s' with
        queue := s'.queue.filter fun q => !(q.head == d.head)
        monitors := s'.monitors.set d.head Monitor.idle }
      if arrival = some d.head then gone
      else gone.offer (.head d.head) (eventFrame 65 (u8 d.claim.site.val ++ [reason]))
    let older := s.queue.takeWhile fun o => !(o.head == e.head)
    let required := fun x : SiteEntry => e.claim.restrike = false ∧ x.state = .loaded ∨
      e.claim.restrike = true ∧ x.state = .rejected ∧ x.last = some (.abort .depthLimit) ∧
        x.attempts < 3
    let grantable := fun x : SiteEntry =>
      (s.typeSlot x.typeNo).state = .ready ∧ (∀ z ∈ x.keepOut, s.holder z = none) ∧
      s.records.length + s.reserved < 64 ∧
      ∀ o ∈ older, o.bypass = s.board.bypassLimit → ∀ xo, s.site o.claim.site = some xo →
        ∀ z ∈ xo.keepOut, z ∉ x.keepOut
    ((∀ x, s.site e.claim.site = some x → ¬ required x) → after = drop 0 s e) ∧
    (∀ x, s.site e.claim.site = some x → required x →
      let slot := s.typeSlot x.typeNo
      (¬ grantable x → after = s) ∧
      (∀ a, grantable x → slot.active = some a → a.InOrder → a.sound →
        let granted := ({ s with
          library := s.library.set x.typeNo { slot with
            users := slot.users + 1
            active := some { a with flips := [] }
            faults := min (slot.faults + a.flips.length) 255 }
          zones := Vector.ofFn fun z => if z ∈ x.keepOut then some e.head else s.holder z
          sites := s.sites.set e.claim.site (some { x with
            state := .claimed e.head (if e.claim.restrike then .rejected else .loaded) })
          queue := s.queue.filter fun q => !(q.head == e.head)
          monitors := s.monitors.set e.head
            { state := .armed, claim := some e.claim, grantTime := some s.clock, slot := true
              copy := some { typeNo := x.typeNo, fields := a.fields }
              permit := false, stroke := none } } : State).offer (.head e.head)
            (eventFrame 64 (u8 e.claim.site.val ++ u8 x.typeNo.val ++ u32 a.fields.partCode.toNat
              ++ flagByte e.claim.restrike ++ u8 s.board.holdTime))
        let others : State :=
          (granted.queue.filter fun q => q.claim.site == e.claim.site).foldl (drop 0) granted
        after = { others with
          queue := others.queue.map fun q =>
            if older.any (fun o => o.head == q.head) ∧ (s.site q.claim.site).any (fun xq =>
                xq.keepOut.any fun z => x.keepOut.contains z) then
              { q with bypass := q.bypass + 1 }
            else q }) ∧
      (∀ a, grantable x → slot.active = some a → ¬ a.sound →
        let broken := s.setType x.typeNo { slot with
          state := .broken, active := some a.corrected
          faults := min (slot.faults + a.correctable) 255 }
        after = (s.queue.filter fun q =>
          (s.site q.claim.site).any fun xq => xq.typeNo == x.typeNo).foldl (drop 1) broken))) ∧
  (∀ (arrival : Option Head) (s : State),
    s.pass arrival = (s.queue.map (·.head)).foldl (fun s' h =>
      match s'.queue.find? fun e => e.head == h with
      | some e => s'.passEntry arrival e
      | none => s') s) ∧
  (∀ (h : Head) (tag n : Byte) (restrike : Bool) (site : Fin 96) (e : SiteEntry) (s : State),
    s.takes (.head h) = true → site.val = n.toNat → s.board.state = .isOpen → s.estop = false →
    (s.monitor h).state = .idle → s.site site = some e →
    (restrike = false ∧ e.state = .loaded ∨
      restrike = true ∧ e.state = .rejected ∧ e.last = some (.abort .depthLimit) ∧
        e.attempts < 3) →
    (s.typeSlot e.typeNo).state ≠ .broken →
    let joined : State := { s with
      queue := s.queue ++ [{ head := h, claim := { site := site, restrike := restrike }, bypass := 0 }]
      monitors := s.monitors.set h { s.monitor h with state := .waiting } }
    let passed := joined.pass none
    exec (.claim h tag ([n, 1] ++ flagByte restrike)) s =
      .next ((joined.withReply (.head h) 17 tag .ok ([n] ++ u8 (passed.monitor h).state.code
        ++ optField 1 ((passed.queuePosition h).map u8))).pass none)) ∧
  (∀ (h : Head) (tag n : Byte) (restrike : Bool) (site : Fin 96) (e : SiteEntry) (s : State),
    s.takes (.head h) = true → site.val = n.toNat → s.board.state = .isOpen → s.estop = false →
    (s.monitor h).state = .idle → (∀ q ∈ s.queue, q.head ≠ h) → s.site site = some e →
    (restrike = false ∧ e.state = .loaded ∨
      restrike = true ∧ e.state = .rejected ∧ e.last = some (.abort .depthLimit) ∧
        e.attempts < 3) →
    (s.typeSlot e.typeNo).state ≠ .broken →
    let joined : State := { s with
      queue := s.queue ++ [{ head := h, claim := { site := site, restrike := restrike }, bypass := 0 }] }
    let passed := joined.pass (some h)
    let command := Instr.claim h tag ([n, 0] ++ flagByte restrike)
    let refused := fun st : Status =>
      let told := (joined.withReply (.head h) 17 tag st []).pass (some h)
      exec command s = .next { told with queue := told.queue.filter fun q => !(q.head == h) }
    let stands := ∃ q ∈ passed.queue, q.head = h
    let required := ∃ x, passed.site site = some x ∧ (restrike = false ∧ x.state = .loaded ∨
      restrike = true ∧ x.state = .rejected ∧ x.last = some (.abort .depthLimit) ∧ x.attempts < 3)
    let draining := (passed.typeSlot e.typeNo).state = .draining
    let zone := (∃ z ∈ e.keepOut, ∃ h', passed.holder z = some h') ∨
      ∃ o ∈ passed.queue.takeWhile (fun o => !(o.head == h)), o.bypass = s.board.bypassLimit ∧
        ∃ xo, passed.site o.claim.site = some xo ∧ ∃ z ∈ xo.keepOut, z ∈ e.keepOut
    let full := 64 ≤ passed.records.length + passed.reserved
    ((passed.monitor h).state = .armed →
      exec command s = .next ((joined.withReply (.head h) 17 tag .ok
        ([n, 2] ++ optField 1 ((passed.queuePosition h).map u8))).pass (some h))) ∧
    ((passed.monitor h).state ≠ .armed →
      (¬ stands → ¬ required → refused .siteState) ∧
      (¬ stands → required → refused .typeBroken) ∧
      (stands → draining → refused .typeDraining) ∧
      (stands → ¬ draining → zone → refused .zoneBusy) ∧
      (stands → ¬ draining → ¬ zone → full → refused .noRecordSpace)))

/-- R76, R77, R79: RELEASE in WAITING and in ARMED, and the expiry of an armed claim at the first timebase
event at or after the end of its hold: the site returns to its state at grant, the zones lose their
holder, the user is released, the head is IDLE, and the queue is passed. RELEASE is refused elsewhere,
and an event before the end of the hold changes nothing but the time (logs 2 and 3). An expiry is no
request: it does not wait on the head's link. No other event ends the claim: where the time passes the
event at which a claim is due, by a later event, by a transmission or in an idle step, the claim has
expired at its own event first. That the part's time passes by these, and that the expiry is a command of
its own, are the model's choices (logs 1 to 4). -/
def Obligations.ArmedClaimsAreGivenUp : Prop :=
  (∀ (h : Head) (tag : Byte) (s : State), s.takes (.head h) = true →
    (∀ payload : List Byte, payload ≠ [] → payload.length ≤ 250 →
      exec (.release h tag payload) s = .next (s.withReply (.head h) 18 tag .badLength [])) ∧
    ((s.monitor h).state = .idle →
      exec (.release h tag []) s = .next (s.withReply (.head h) 18 tag .claimLost [])) ∧
    ((s.monitor h).state.inStroke = true ∨ (s.monitor h).state = .retract ∨
        (s.monitor h).state = .halted →
      exec (.release h tag []) s = .next (s.withReply (.head h) 18 tag .headState [])) ∧
    ((s.monitor h).state = .waiting →
      exec (.release h tag []) s = .next (({ s with
        queue := s.queue.filter fun e => !(e.head == h)
        monitors := s.monitors.set h Monitor.idle }.withReply (.head h) 18 tag .ok [1]).pass
          none))) ∧
  (∀ (h : Head) (s : State),
    (∀ c w e g granted, (s.monitor h).state = .armed → (s.monitor h).claim = some c →
      (s.monitor h).copy = some w → (s.monitor h).grantTime = some granted →
      s.site c.site = some e → e.state = .claimed h g →
      let ended := fun s' : State =>
        ((({ s' with
          sites := s.sites.set c.site (some { e with
            state := match g with
              | .loaded => .loaded
              | .rejected => .rejected })
          zones := Vector.ofFn fun z => if s.holder z = some h then none else s.holder z
          }).releaseUser w.typeNo).state).setMonitor h Monitor.idle
      (∀ tag : Byte, s.takes (.head h) = true → exec (.release h tag []) s =
        .next ((ended (s.withReply (.head h) 18 tag .ok [2])).pass none)) ∧
      (∀ event, (∀ h', h' ≠ h → s.expiresNoSooner h' (event * 10000)) →
        (granted + s.board.holdTime * 100000 ≤ event * 10000 →
          event * 10000 < granted + s.board.holdTime * 100000 + 10000 →
          exec (.holdTimerExpiry h event) s =
            .next (((ended { s with clock := max s.clock (event * 10000) }).offer (.head h)
              (eventFrame 66 (u8 c.site.val))).pass none)) ∧
        (event * 10000 < granted + s.board.holdTime * 100000 →
          exec (.holdTimerExpiry h event) s =
            .next { s with clock := max s.clock (event * 10000) }))) ∧
    ((s.monitor h).state ≠ .armed → ∀ event, s.quietUntil (event * 10000) →
      exec (.holdTimerExpiry h event) s = .next { s with clock := max s.clock (event * 10000) })) ∧
  (∀ (h : Head) (granted event : Nat) (s t : State), (s.monitor h).state = .armed →
    (s.monitor h).grantTime = some granted →
    granted + s.board.holdTime * 100000 ≤ event * 10000 →
    event * 10000 < granted + s.board.holdTime * 100000 + 10000 →
    (∀ h', h' ≠ h → s.expiresNoSooner h' (event * 10000 + 1)) →
    exec (.holdTimerExpiry h event) s = .next t →
    (∀ h' later, event < later →
      exec (.holdTimerExpiry h' later) s = exec (.holdTimerExpiry h' later) t) ∧
    (s.pending = [] → event * 10000 ≤ s.clock → step s = step t) ∧
    (∀ l f rest, (s.link l).tx = none → (s.link l).out = f :: rest →
      event * 10000 < (s.link l).idleSince + 40 →
      exec (.frameTransmitStart l) s = exec (.frameTransmitStart l) t) ∧
    (∀ l x, (s.link l).tx = some x → event * 10000 < x.since + 10 * x.bytes.length →
      exec (.frameTransmissionEnd l) s = exec (.frameTransmissionEnd l) t))

/-! ### Strokes -/

/-- R91, with section 0.6 and R153: START accepted. -/
def Obligations.StartBeginsTheStroke : Prop :=
  (∀ (h : Head) (tag : Byte) (c : Claim) (w : WorkingCopy) (e : SiteEntry) (h' : Head)
    (g : GrantFrom) (s : State), s.takes (.head h) = true →
    (s.monitor h).state = .armed → (s.monitor h).claim = some c → (s.monitor h).copy = some w →
    (s.front h).homed = true → (s.front h).encoderFault = false →
    (s.front h).tare.state = .stable →
    2 * (s.front h).latest.net < w.fields.contactThreshold →
    s.site c.site = some e → e.state = .claimed h' g →
    let f := s.front h
    let strokeLimit := samplesOf s.period (w.fields.strokeLimit * 100)
    let stallLimit := samplesOf s.period w.fields.stallTime
    let dwellLimit := samplesOf s.period w.fields.dwell
    exec (.start h tag []) s = .next ({ s with
      sites := s.sites.set c.site (some { e with state := .pressing h' g })
      fronts := s.fronts.set h { f with heldCount := 0 }
      monitors := s.monitors.set h { s.monitor h with
        state := .approach, permit := true, grantTime := none
        stroke := some
          { serial := s.board.serial, attempt := e.attempts + 1, startPosition := f.position
            strokeLimit := strokeLimit, stallLimit := stallLimit, dwellLimit := dwellLimit
            count := 0, contactRun := 0, candidate := none, contactPosition := none, stallRun := 0
            seatDepth := none, dwell := 0
            peakForce := f.latest.net, peakTilt := none, samples := 0, samplesSaturated := false
            eval :=
              { depth := none, maxDepth := none, pendingBaseline := none
                captures := w.fields.groups.map fun (g : Group) =>
                  ({ baseline := if g.entry = 0 then some 0 else none, step := none } :
                    GroupCapture)
                chain := none, results := []
                failures :=
                  { bandHigh := false, bandLow := false, groupLow := false, groupHigh := false }
                firstBandDepth := none, window := [], overtravel := none }
            abort := none } } }.withReply (.head h) 19 tag .ok
        (u8 c.site.val ++ flagByte c.restrike ++ s32 f.position ++ u32 strokeLimit
          ++ u32 stallLimit ++ u32 dwellLimit))) ∧
  (∀ (p : Period) (ms : Nat), ms * 1000 ≤ samplesOf p ms * p.micros ∧
    samplesOf p ms * p.micros < ms * 1000 + p.micros)

/-- R90: the refusals of START in their order; each changes nothing, and carries the head state. -/
def Obligations.StartRefusals : Prop :=
  ∀ (h : Head) (tag : Byte) (s : State), s.takes (.head h) = true →
    let code := u8 (s.monitor h).state.code
    (∀ payload : List Byte, payload ≠ [] → payload.length ≤ 250 →
      exec (.start h tag payload) s = .next (s.withReply (.head h) 19 tag .badLength code)) ∧
    ((s.monitor h).state = .idle →
      exec (.start h tag []) s = .next (s.withReply (.head h) 19 tag .claimLost [0])) ∧
    ((s.monitor h).state ≠ .idle → (s.monitor h).state ≠ .armed →
      exec (.start h tag []) s = .next (s.withReply (.head h) 19 tag .headState code)) ∧
    (∀ c w, (s.monitor h).state = .armed → (s.monitor h).claim = some c →
      (s.monitor h).copy = some w →
      let f := s.front h
      (f.homed = false ∨ f.encoderFault = true →
        exec (.start h tag []) s = .next (s.withReply (.head h) 19 tag .notHomed [2])) ∧
      (f.homed = true → f.encoderFault = false → f.tare.state ≠ .stable →
        exec (.start h tag []) s = .next (s.withReply (.head h) 19 tag .tareUnstable [2])) ∧
      (f.homed = true → f.encoderFault = false → f.tare.state = .stable →
        (w.fields.contactThreshold : Int) ≤ 2 * f.latest.net →
        exec (.start h tag []) s =
          .next (s.withReply (.head h) 19 tag .forcePresent ([2] ++ s32 f.latest.net))))

/-- R93: the work on a stroke sample, in its order: the count and the figures, the state's progress
with its events, the abort checks against the state then left, and the verdict where the dwell is
complete. -/
def Obligations.StrokeSampleIsWorkedInOrder : Prop :=
  ∀ (h : Head) (conv : PerCorner Conversions) (c : Claim) (w : WorkingCopy) (k : Stroke)
    (s : State), s.resetHeld = false → (s.monitor h).state.inStroke = true →
    (s.monitor h).claim = some c → (s.monitor h).copy = some w → (s.monitor h).stroke = some k →
    let sample := s.sampleOf h conv
    let counted := { k with
      count := k.count + 1
      samples := min (k.samples + 1) 65535
      samplesSaturated := k.samplesSaturated || decide (65535 ≤ k.samples + 1)
      peakForce := max k.peakForce sample.net
      peakTilt := match k.peakTilt, sample.tilt with
        | none, tilt => tilt
        | some peak, none => some peak
        | some peak, some tilt => some (max peak tilt) }
    let p := counted.progress (s.monitor h).state w.fields c.restrike sample
    let worked := (s.setFront h { s.front h with
        corners := (s.front h).corners.zipWith (cornerAfter (s.front h).noiseLimit) conv
        periodFault := false
        heldCount := min ((s.front h).heldCount + sample.noisyCount) 255
        latest := sample }).setMonitor h { s.monitor h with
          state := p.state, stroke := some p.stroke }
    let told := if p.contact then worked.offer (.head h) (eventFrame 68
        (u8 c.site.val ++ s32 (p.stroke.contactPosition.getD 0) ++ u32 p.stroke.count)) else worked
    let told := if p.seated then told.offer (.head h) (eventFrame 69
        (u8 c.site.val ++ s32 (p.stroke.seatDepth.getD 0) ++ u32 p.stroke.count)) else told
    let causes := strokeCauses p.state w.fields c.restrike p.stroke sample
    let complete := p.state = .seating ∧ p.stroke.dwell = p.stroke.dwellLimit
    (∀ primary further, causes = primary :: further →
      exec (.sampleComplete h conv) s = .next (told.abortStroke h primary further).run) ∧
    (causes = [] → complete → exec (.sampleComplete h conv) s = .next (told.giveVerdict h).run) ∧
    (causes = [] → ¬ complete → exec (.sampleComplete h conv) s = .next told)

/-- R95 to R99, R127: the contact run, the contact it confirms, the samples the evaluator takes from
the confirming one on, the seat it finds, the stall run, and in SEATING the dwell count, the depths and
the overtravel. -/
def Obligations.ContactStallAndDwell : Prop :=
  ∀ (k : Stroke) (r : TypeRecord) (restrike : Bool) (sample : SampleRecord),
    let inApproach := k.progress .approach r restrike sample
    let candidate := if k.contactRun = 0 then sample.position else k.candidate.getD sample.position
    (sample.net < r.contactThreshold →
      inApproach.state = .approach ∧ inApproach.contact = false ∧ inApproach.seated = false ∧
      inApproach.stroke = { k with contactRun := 0, candidate := none }) ∧
    ((r.contactThreshold : Int) ≤ sample.net → k.contactRun + 1 < r.confirmCount →
      inApproach.state = .approach ∧ inApproach.contact = false ∧ inApproach.seated = false ∧
      inApproach.stroke = { k with
        contactRun := k.contactRun + 1, candidate := some candidate }) ∧
    ((r.contactThreshold : Int) ≤ sample.net → r.confirmCount ≤ k.contactRun + 1 →
      inApproach.contact = true ∧ inApproach.stroke.contactPosition = some candidate ∧
      inApproach.stroke.stallRun = 0 ∧
      (let out := k.eval.engage r restrike (sample.position - candidate) sample.net
      inApproach.state = (if out.seat.isSome then .seating else .engage) ∧
      inApproach.seated = out.seat.isSome ∧
      inApproach.stroke = { k with
        contactRun := k.contactRun + 1, candidate := some candidate
        contactPosition := some candidate, stallRun := 0, eval := out.eval
        seatDepth := if out.seat.isSome then out.seat else k.seatDepth
        dwell := if out.seat.isSome then 0 else k.dwell })) ∧
    (∀ pc, k.contactPosition = some pc →
      let inEngage := k.progress .engage r restrike sample
      let out := k.eval.engage r restrike (sample.position - pc) sample.net
      let deeper := ∀ m, k.eval.maxDepth = some m → m < sample.position - pc
      inEngage.contact = false ∧ inEngage.seated = out.seat.isSome ∧
      inEngage.state = (if out.seat.isSome then .seating else .engage) ∧
      inEngage.stroke = { k with
        stallRun := inEngage.stroke.stallRun, eval := out.eval
        seatDepth := if out.seat.isSome then out.seat else k.seatDepth
        dwell := if out.seat.isSome then 0 else k.dwell } ∧
      inEngage.stroke.eval.depth = some (sample.position - pc) ∧
      (inEngage.seated = true → inEngage.stroke.seatDepth = some (sample.position - pc) ∧
        inEngage.stroke.dwell = 0 ∧ inEngage.stroke.eval.overtravel = some 0) ∧
      (inEngage.seated = false → inEngage.state = .engage ∧
        inEngage.stroke.seatDepth = k.seatDepth) ∧
      (deeper → inEngage.stroke.stallRun = 0) ∧
      (¬ deeper → inEngage.stroke.stallRun = k.stallRun + 1)) ∧
    (∀ pc seat, k.contactPosition = some pc → k.seatDepth = some seat →
      let inSeating := k.progress .seating r restrike sample
      inSeating.state = .seating ∧ inSeating.contact = false ∧ inSeating.seated = false ∧
      inSeating.stroke = { k with
        dwell := k.dwell + 1
        eval := { k.eval with
          depth := some (sample.position - pc)
          maxDepth := some (match k.eval.maxDepth with
            | none => sample.position - pc
            | some m => max m (sample.position - pc))
          overtravel := some (sample.position - pc - seat) } })

/-- R132, R133, R135: the causes found on a stroke sample are those of the table in the state that
step 2 left, and they come in rising order of code, so that the first is the primary cause. -/
def Obligations.StrokeCausesAreTheTable : Prop :=
  ∀ (st : HeadState) (r : TypeRecord) (restrike : Bool) (k : Stroke) (sample : SampleRecord),
    st.inStroke = true →
    let found := strokeCauses st r restrike k sample
    let depthLimit := if restrike then r.seatSearch else r.seatStart + r.seatSearch
    found.Pairwise (fun c d => c.code < d.code) ∧
    (Cause.overforce ∈ found ↔ (r.forceMax : Int) < sample.net) ∧
    (Cause.overrange ∈ found ↔ ∃ e ∈ sample.corners.toList, e.saturated = true) ∧
    (Cause.encoder ∈ found ↔ sample.periodFault = true) ∧
    (Cause.tilt ∈ found ↔ ∃ i, sample.tilt = some i ∧ r.tiltLimit < i) ∧
    (Cause.overtravel ∈ found ↔
      st = .seating ∧ ∃ o, k.eval.overtravel = some o ∧ (r.overtravelMax : Int) < o) ∧
    (Cause.depthLimit ∈ found ↔
      st = .engage ∧ ∃ d, k.eval.maxDepth = some d ∧ (depthLimit : Int) ≤ d) ∧
    (Cause.noContact ∈ found ↔
      st = .approach ∧ (r.approachLimit : Int) < sample.position - k.startPosition) ∧
    (Cause.stalled ∈ found ↔ st = .engage ∧ k.stallLimit ≤ k.stallRun) ∧
    (Cause.sensorNoise ∈ found ↔ ∃ e ∈ sample.corners.toList, e.noisyRun = true) ∧
    (Cause.strokeTime ∈ found ↔ k.strokeLimit ≤ k.count) ∧
    (∀ c ∈ found, c.code ≤ 10)

/-- R136, R137, R141: the effects of an abort, the record fixed with it; STOP in a stroke state makes
one with HEAD_STOP, its reply before ABORTED (R102), and is refused elsewhere. -/
def Obligations.AbortHaltsTheHead : Prop :=
  (∀ (h : Head) (cause : Cause) (further : List Cause) (c : Claim) (w : WorkingCopy) (k : Stroke)
    (e : SiteEntry) (s : State), (s.monitor h).claim = some c → (s.monitor h).copy = some w →
    (s.monitor h).stroke = some k → s.site c.site = some e →
    let m := s.monitor h
    let contact := decide (m.state = .engage ∨ m.state = .seating)
    let released := { s with
      monitors := s.monitors.set h { m with
        state := .halted, permit := false
        stroke := some (k.aborted h c w (s.front h).heldCount contact cause further) }
      sites := s.sites.set c.site (some (e.apply (.abort cause contact)))
      }.releaseUser w.typeNo
    s.abortStroke h cause further =
      { state := (released.state.setFront h { s.front h with
          tare := { (s.front h).tare with run := 0, state := .settling } }).offer (.head h)
            (eventFrame 71 (u8 c.site.val ++ u8 cause.code))
        due := released.due }) ∧
  (∀ (h : Head) (tag : Byte) (s : State), s.takes (.head h) = true →
    (∀ payload : List Byte, payload ≠ [] → payload.length ≤ 250 →
      exec (.stop h tag payload) s = .next (s.withReply (.head h) 20 tag .badLength [])) ∧
    ((s.monitor h).state.inStroke = false →
      exec (.stop h tag []) s = .next (s.withReply (.head h) 20 tag .headState [])) ∧
    ((s.monitor h).state.inStroke = true →
      exec (.stop h tag []) s =
        .next ((s.withReply (.head h) 20 tag .ok [7]).abortStroke h .headStop []).run))

/-- R100, R150, R151, R154: the effects of a verdict, PASS where the failure set is empty and REJECT
otherwise, and the record it appends; on a stroke without restrike each group not judged has a
NOT_REACHED result (R122), and the rest of the evaluation stays as it was (R109). -/
def Obligations.VerdictAppendsTheRecord : Prop :=
  ∀ (h : Head) (c : Claim) (w : WorkingCopy) (k : Stroke) (e : SiteEntry) (seat : Int) (s : State),
    (s.monitor h).claim = some c → (s.monitor h).copy = some w → (s.monitor h).stroke = some k →
    s.site c.site = some e → k.seatDepth = some seat →
    let m := s.monitor h
    let fs := k.eval.failures
    let passed := fs.bandHigh = false ∧ fs.bandLow = false ∧ fs.groupLow = false ∧
      fs.groupHigh = false
    let judged := k.eval.results.length
    let eval := if c.restrike then k.eval else { k.eval with
      results := k.eval.results ++ (List.range (w.fields.groups.length - judged)).map fun i =>
        { index := judged + i + 1, status := .notReached, step := none, mean := none
          deficit := none } }
    let e' := if passed then e.apply (.pass seat) else e.apply (.reject fs)
    let record : PressRecord :=
        { serial := k.serial, site := c.site, typeNo := w.typeNo, partCode := w.fields.partCode
          head := h, attempt := k.attempt, restrike := c.restrike
          outcome := if passed then .pass else .reject
          failures := if passed then none else some fs
          firstBandDepth := k.eval.firstBandDepth, causes := none
          contactPosition := k.contactPosition, seatDepth := some seat
          overtravel := k.eval.overtravel, peakForce := k.peakForce, peakTilt := k.peakTilt
          samples := k.samples, samplesSaturated := k.samplesSaturated
          heldCount := (s.front h).heldCount
          groups := if c.restrike then none else some eval.results }
    let released := { s with
      records := s.records ++ [record]
      monitors := s.monitors.set h { m with
        state := .retract, permit := false, slot := false, stroke := some { k with eval := eval } }
      sites := s.sites.set c.site (some e') }.releaseUser w.typeNo
    s.giveVerdict h =
      { state := (released.state.setFront h { s.front h with
          tare := { (s.front h).tare with run := 0, state := .settling } }).offer (.head h)
            (eventFrame 70 (u8 c.site.val ++ (if passed then [0] else [1]) ++ u8 fs.code
              ++ u8 e'.state.code ++ u8 e'.attempts))
        due := released.due }

/-- R84, R101, R140: RETRACTED in RETRACT and HALT_ACK in HALTED free the zones and make the head
IDLE; HALT_ACK first appends the record due, its further-cause set as it then stands; the queue is
passed, and an ABORTING board closes with the last such head (R46). Both are refused elsewhere. -/
def Obligations.HeadsLeaveTheirStroke : Prop :=
  ∀ (h : Head) (tag : Byte) (s : State), s.takes (.head h) = true →
    let zones := u8 ((List.finRange 32).countP fun z => s.holder z == some h)
    let left := fun s' : State => (({ s' with
        zones := Vector.ofFn fun z => if s.holder z = some h then none else s.holder z
        monitors := s.monitors.set h Monitor.idle }.pass none).closeIfAborted)
    (∀ payload : List Byte, payload ≠ [] → payload.length ≤ 250 →
      exec (.retracted h tag payload) s = .next (s.withReply (.head h) 21 tag .badLength []) ∧
      exec (.haltAck h tag payload) s = .next (s.withReply (.head h) 22 tag .badLength [])) ∧
    ((s.monitor h).state ≠ .retract →
      exec (.retracted h tag []) s = .next (s.withReply (.head h) 21 tag .headState [])) ∧
    ((s.monitor h).state ≠ .halted →
      exec (.haltAck h tag []) s = .next (s.withReply (.head h) 22 tag .headState [])) ∧
    ((s.monitor h).state = .retract →
      exec (.retracted h tag []) s = .next (left (s.withReply (.head h) 21 tag .ok zones))) ∧
    (∀ k a, (s.monitor h).state = .halted → (s.monitor h).stroke = some k → k.abort = some a →
      (∀ r, a.due = some r →
        exec (.haltAck h tag []) s = .next (left ({ s with
          records := s.records ++ [{ r with causes := some (a.primary, a.further) }] }.withReply
            (.head h) 22 tag .ok (u8 a.primary.code ++ zones ++ [1])))) ∧
      (a.due = none →
        exec (.haltAck h tag []) s =
          .next (left (s.withReply (.head h) 22 tag .ok (u8 a.primary.code ++ zones ++ [0]))))) ∧
    (∀ s' : State, s'.board.state ≠ .aborting → s'.closeIfAborted = s') ∧
    (∀ s' : State, s'.board.state = .aborting →
      ((∃ h', (s'.monitor h').state = .halted ∨ (s'.monitor h').state = .retract) →
        s'.closeIfAborted = s') ∧
      ((∀ h', (s'.monitor h').state ≠ .halted ∧ (s'.monitor h').state ≠ .retract) →
        s'.closeIfAborted = { s' with
          board := { state := .noBoard, serial := 0, bypassLimit := 4, holdTime := 50 }
          sites := Vector.replicate 96 none }))

/-- R138: a sample completed in HALTED adds those of codes 1 to 4 that it finds, but for the primary
cause, to the further-cause set; it is kept as the latest sample record and steps or restarts the tare
tracker (R13, R14, R16), the held-value count stays, and nothing else changes. -/
def Obligations.HaltedSamplesAreWatched : Prop :=
  ∀ (h : Head) (conv : PerCorner Conversions) (w : WorkingCopy) (k : Stroke) (a : AbortItems)
    (s : State), s.resetHeld = false → (s.monitor h).state = .halted →
    (s.monitor h).copy = some w → (s.monitor h).stroke = some k → k.abort = some a →
    let sample := s.sampleOf h conv
    let f := s.front h
    ∃ further, exec (.sampleComplete h conv) s = .next ((s.setFront h { f with
        corners := f.corners.zipWith (cornerAfter f.noiseLimit) conv
        tare :=
          if sample.corners.toList.any (fun e => e.noisyRun || e.saturated) then
            { f.tare with run := 0, state := .settling }
          else f.tare.step f.hysteresis (stabilitySamples s.period f) sample.gross
        periodFault := false
        latest := sample }).setMonitor h { s.monitor h with
          stroke := some { k with abort := some { a with further := further } } }) ∧
      ∀ d, d ∈ further ↔ d ∈ a.further ∨ (d ≠ a.primary ∧
        (d = .overforce ∧ (w.fields.forceMax : Int) < sample.net ∨
          d = .overrange ∧ (∃ e ∈ sample.corners.toList, e.saturated = true) ∨
          d = .encoder ∧ (s.front h).periodFault = true ∨
          d = .tilt ∧ ∃ i, sample.tilt = some i ∧ w.fields.tiltLimit < i))

/-- R83, R88, R139, R142: ESTOP asserted ends every claim and stroke, releases their users (R28, R29,
R36, R81) and holds every PERMIT; its release changes no head and passes the queue, which is then
empty. The fault count and the former active record kept after a failed installing read are the model's
(log 12), and so is that the clock stays (log 2). That ESTOP_ASSERTED with ESTOP asserted already acts as
one more assertion, and ESTOP_RELEASED with it released already passes the queue, is log 7. -/
def Obligations.EstopEndsEverything : Prop :=
  (∀ s : State, SiteLaw s → ∃ t, exec .estopAsserted s = .next t ∧ EndedBy .estop .estop s t ∧
    t.estop = true ∧ (∀ h, t.permitOut h = false) ∧ t.board = s.board ∧
    (∀ n, t.site n = (s.site n).map (siteEnded .estop s)) ∧ t.cellLink = s.cellLink) ∧
  (∀ s : State, s.queue = [] → exec .estopReleased s = .next { s with estop := false }) ∧
  (∀ s : State, exec .estopReleased s = .next ({ s with estop := false }.pass none))

/-- R82, R106, R143, R167: a break on an UP link; what it does to the head of a head link, by the
head's state; and that a break on a DOWN link has no effect. -/
def Obligations.LinkBreakEndsTheSession : Prop :=
  ∀ (l : Link) (s : State),
    let cut := s.setLink l
      { up := false, assembly := [], assemblyBad := false, out := [], tx := none, overrun := false
        idleSince := match (s.link l).tx with
          | some _ => s.clock
          | none => (s.link l).idleSince }
    ((s.link l).up = false → exec (.linkBreak l) s = .next s) ∧
    ((s.link l).up = true → l = .cell → exec (.linkBreak l) s = .next cut) ∧
    (∀ h, (s.link l).up = true → l = .head h →
      ((s.monitor h).state = .idle ∨ (s.monitor h).state = .retract →
        exec (.linkBreak l) s = .next cut) ∧
      (∀ e ∈ s.queue, (s.monitor h).state = .waiting → e.head = h →
        exec (.linkBreak l) s = .next ({ cut with
          queue := s.queue.filter fun e => !(e.head == h)
          monitors := s.monitors.set h Monitor.idle }.pass none)) ∧
      (∀ c w e g, (s.monitor h).state = .armed → (s.monitor h).claim = some c →
        (s.monitor h).copy = some w → s.site c.site = some e → e.state = .claimed h g →
        exec (.linkBreak l) s = .next (((({ cut with
          sites := s.sites.set c.site (some { e with
            state := match g with
              | .loaded => .loaded
              | .rejected => .rejected })
          zones := Vector.ofFn fun z => if s.holder z = some h then none else s.holder z
          }.releaseUser w.typeNo).state).setMonitor h Monitor.idle).pass none)) ∧
      ((s.monitor h).state.inStroke = true →
        exec (.linkBreak l) s = .next (cut.abortStroke h .linkDown []).run) ∧
      (∀ k a, (s.monitor h).state = .halted → (s.monitor h).stroke = some k → k.abort = some a →
        ∃ further, exec (.linkBreak l) s = .next (cut.setMonitor h { s.monitor h with
            stroke := some { k with abort := some { a with further := further } } }) ∧
          ∀ d, d ∈ further ↔ d ∈ a.further ∨ (d = .linkDown ∧ a.primary ≠ .linkDown)))

/-- R21, R36, R41, R63, R86, R108, R145, R146, R161, R175: a warm reset. That a type broken by a failed
installing read keeps its former active record is the model's reading (log 12), and that the clock stays is
its choice (log 2). -/
def Obligations.WarmResetEndsEverything : Prop :=
  ∀ (tag : Byte) (s : State), s.takes .cell = true →
    (∀ payload : List Byte, payload ≠ [] → payload.length ≤ 250 →
      exec (.warmReset tag payload) s = .next (s.withReply .cell 44 tag .badLength [])) ∧
    (SiteLaw s → LibrarySound s → ∃ t, exec (.warmReset tag []) s = .next t ∧
      t.queue = [] ∧ t.records = [] ∧ (∀ n, t.site n = none) ∧ (∀ z, t.holder z = none) ∧
      t.board = { state := .noBoard, serial := 0, bypassLimit := 4, holdTime := 50 } ∧
      t.period = s.period ∧ t.estop = s.estop ∧ t.clock = s.clock ∧ t.resetHeld = s.resetHeld ∧
      (∀ e ∈ s.queue, t.monitor e.head = Monitor.idle ∧
        t.link (.head e.head) = (s.link (.head e.head)).offer
          (eventFrame 65 (u8 e.claim.site.val ++ [6]))) ∧
      (∀ h, (s.monitor h).state = .idle → t.monitor h = s.monitor h ∧
        t.link (.head h) = s.link (.head h)) ∧
      (∀ h c, (s.monitor h).state = .armed → (s.monitor h).claim = some c →
        t.monitor h = Monitor.idle ∧
        t.link (.head h) = (s.link (.head h)).offer (eventFrame 67 (u8 c.site.val ++ [6]))) ∧
      (∀ h c w k, (s.monitor h).state.inStroke = true → (s.monitor h).claim = some c →
        (s.monitor h).copy = some w → (s.monitor h).stroke = some k →
        t.monitor h = { s.monitor h with
          state := .halted, permit := false, slot := false
          stroke := some (k.aborted h c w (s.front h).heldCount (s.monitor h).state.afterContact
            .supervisorReset []) } ∧
        t.link (.head h) = (s.link (.head h)).offer (eventFrame 71 (u8 c.site.val ++ [15]))) ∧
      (∀ h, (s.monitor h).state = .retract ∨ (s.monitor h).state = .halted →
        t.monitor h = { s.monitor h with slot := false } ∧
        t.link (.head h) = s.link (.head h)) ∧
      (∀ h, t.front h = { s.front h with
        corners := (s.front h).corners.map fun c => { c with noiseRun := 0 }
        heldCount := 0
        tare := if (s.monitor h).state.inStroke then
            { (s.front h).tare with run := 0, state := .settling }
          else (s.front h).tare }) ∧
      (∀ i, (s.typeSlot i).state ≠ .draining →
        t.typeSlot i = { s.typeSlot i with users := 0 }) ∧
      (∀ i p, (s.typeSlot i).state = .draining → (s.typeSlot i).waiting = some p →
        (p.sound → t.typeSlot i =
          { state := .ready, users := 0, faults := min p.flips.length 255
            active := some { p with flips := [] }, waiting := none }) ∧
        (¬ p.sound → (t.typeSlot i).state = .broken ∧ (t.typeSlot i).users = 0 ∧
          (t.typeSlot i).waiting = none ∧ (t.typeSlot i).active = (s.typeSlot i).active)) ∧
      t.cellLink = (s.withReply .cell 44 tag .ok
        (u8 s.records.length ++ u8 (s.monitors.toList.countP fun m =>
          m.state.inStroke || m.state == .retract || m.state == .halted))).cellLink)

/-! ### Profile evaluation -/

/-- R112, R113, R114: the force bands on a sample in ENGAGE of depth `d` and net force `f`, with the
maximum depth `maxD`, and the first band-failure depth; none is taken from the seat zone start on,
nor on a restrike. The group steps are taken after the band checks, and not on a restrike (R110, R123). -/
def Obligations.ForceBandsAreChecked : Prop :=
  ∀ (e : Evaluation) (r : TypeRecord) (before : Option Int) (maxD d f : Int),
    let after := e.judgeSample r false before maxD d f
    let inside := r.groups.filter fun g => decide ((g.entry : Int) ≤ maxD)
    let high := maxD < r.seatStart ∧ inside ≠ [] ∧
      (((inside.map fun g => g.pins * g.fmax).sum : Nat) : Int) < f
    let low := maxD < r.seatStart ∧
      (∃ g, inside.getLast? = some g ∧ ((g.entry + g.settle : Nat) : Int) ≤ maxD) ∧
      f < (((inside.map fun g => g.pins * g.fmin).sum : Nat) : Int)
    (after.failures.bandHigh = true ↔ e.failures.bandHigh = true ∨ high) ∧
    (after.failures.bandLow = true ↔ e.failures.bandLow = true ∨ low) ∧
    (∀ x, e.firstBandDepth = some x → after.firstBandDepth = some x) ∧
    (e.firstBandDepth = none → high ∨ low → after.firstBandDepth = some d) ∧
    (e.firstBandDepth = none → ¬ high → ¬ low → after.firstBandDepth = none) ∧
    (∃ checked : Evaluation, after = checked.takeGroups r.groups before maxD f ∧
      checked = { e with
        firstBandDepth := after.firstBandDepth
        failures := { e.failures with
          bandHigh := after.failures.bandHigh, bandLow := after.failures.bandLow } }) ∧
    e.judgeSample r true before maxD d f = e

/-- R115: the baselines captured on a sample that carries the maximum depth from `before` to `maxD`,
and the pending baseline it leaves. -/
def Obligations.BaselinesAreCaptured : Prop :=
  ∀ (e : Evaluation) (gs : List Group) (before : Option Int) (maxD f : Int),
    e.captures.length = gs.length → (∀ m, before = some m → m ≤ maxD) →
    let after := e.takeGroups gs before maxD f
    (∀ c, e.captures[0]? = some c →
      ∃ c', after.captures[0]? = some c' ∧ c'.baseline = c.baseline) ∧
    (∀ k g c, 1 ≤ k → gs[k]? = some g → e.captures[k]? = some c →
      ∃ c', after.captures[k]? = some c' ∧ c'.baseline =
        if (g.entry : Int) ≤ maxD ∧ (∀ m, before = some m → m < g.entry) then e.pendingBaseline
        else c.baseline) ∧
    ((∃ k g, 1 ≤ k ∧ gs[k]? = some g ∧ maxD < g.entry) → after.pendingBaseline = some f) ∧
    ((∀ k g, 1 ≤ k → gs[k]? = some g → (g.entry : Int) ≤ maxD) → after.pendingBaseline = none)

/-- R116, R117: on a sample of net force `f` that carries the maximum depth to `maxD`, each group whose
step capture is absent and whose entry depth plus settle span is reached takes its step sample; at the
last of these the chain stays open where the next group's entry depth is reached, and closes otherwise.
R118 to R121: the judgement of the chain that closes at the group of place `k` on a step sample of net
force `f`, its members running from the first group not yet judged. That the estimate of a JOINT_LOW chain
whose step reaches its pins times the smallest fmin is 0 is the model's choice (log 27). -/
def Obligations.ClosedChainIsJudged : Prop :=
  (∀ (e : Evaluation) (gs : List Group) (before : Option Int) (maxD f : Int),
    e.captures.length = gs.length → gs.Pairwise (fun g g' => g.entry < g'.entry) →
    let after := e.takeGroups gs before maxD f
    let steps := fun k => ∃ g c, gs[k]? = some g ∧ e.captures[k]? = some c ∧ c.step = none ∧
      ((g.entry + g.settle : Nat) : Int) ≤ maxD
    after.captures.length = gs.length ∧
    (∀ k c, e.captures[k]? = some c → ∃ c', after.captures[k]? = some c' ∧
      (steps k → c'.step = some f) ∧ (¬ steps k → c'.step = c.step)) ∧
    after = { e with
      captures := after.captures, pendingBaseline := after.pendingBaseline, chain := after.chain
      results := after.results
      failures := { e.failures with
        groupLow := after.failures.groupLow, groupHigh := after.failures.groupHigh } } ∧
    ((∀ k, ¬ steps k) →
      after.chain = e.chain ∧ after.results = e.results ∧ after.failures = e.failures) ∧
    (∀ k, steps k → (∀ j, steps j → j ≤ k) →
      (∀ next, gs[k + 1]? = some next → (next.entry : Int) ≤ maxD →
        after.chain = some (e.results.length + 1, k + 2) ∧ after.results = e.results ∧
        after.failures = e.failures) ∧
      ((∀ next, gs[k + 1]? = some next → maxD < next.entry) →
        after = { e with
          captures := after.captures, pendingBaseline := after.pendingBaseline }.closeChain gs k
            f))) ∧
  (∀ (e : Evaluation) (gs : List Group) (k : Nat) (f base : Int), e.results.length ≤ k →
    k < gs.length → ((e.captures[e.results.length]?).bind (·.baseline)) = some base →
    let members := (gs.drop e.results.length).take (k + 1 - e.results.length)
    let step := f - base
    let pins := (members.map (·.pins)).sum
    let lower : Nat := (members.map fun g => g.pins * g.fmin).sum
    let upper : Nat := (members.map fun g => g.pins * g.fmax).sum
    let joint := 1 < members.length
    let isLow := step < (lower : Int)
    let isHigh := (upper : Int) < step
    ∃ (status : GroupStatus) (least : Nat) (estimate : Nat),
      (isLow → status = if joint then .jointLow else .low) ∧
      (¬ isLow → isHigh → status = if joint then .jointHigh else .high) ∧
      (¬ isLow → ¬ isHigh → status = if joint then .jointPass else .pass) ∧
      (∃ g ∈ members, g.fmin = least) ∧ (∀ g ∈ members, least ≤ g.fmin) ∧
      (estimate : Int) = max 0 (min ((pins : Int) - Int.fdiv step least) pins) ∧
      e.closeChain gs k f = { e with
        chain := none
        results := e.results ++ (List.range members.length).map fun i =>
          { index := e.results.length + i + 1, status := status, step := some step
            mean := some (Int.tdiv step pins)
            deficit := if isLow ∧ i = 0 then some estimate else none }
        failures := { e.failures with
          groupLow := e.failures.groupLow || decide isLow
          groupHigh := e.failures.groupHigh || decide (¬ isLow ∧ isHigh) } })

/-- R110, R111: the work on a sample in ENGAGE of depth `d` and net force `f`: the maximum depth is the
larger of the two, and the bands and group steps are judged at it. R124, R125, R126: the slope window
and the seat it finds. -/
def Obligations.SeatIsFoundBySlope : Prop :=
  ∀ (e : Evaluation) (r : TypeRecord) (restrike : Bool) (d f : Int),
    e.window.length ≤ r.seatWindow + 1 →
    let out := e.engage r restrike d f
    let maxD := match e.maxDepth with
      | none => d
      | some m => max m d
    let judged := { e with depth := some d, maxDepth := some maxD }.judgeSample r restrike e.maxDepth
      maxD d f
    let window := (e.window ++ [(d, f)]).drop (e.window.length - r.seatWindow)
    let inZone := restrike = true ∨ (r.seatStart : Int) ≤ maxD
    let found := inZone ∧ ∃ d₀ f₀ rest, window = (d₀, f₀) :: rest ∧
      window.length = r.seatWindow + 1 ∧ 1 ≤ d - d₀ ∧
      (r.slopeThreshold : Int) ≤ Int.tdiv (f - f₀) (d - d₀)
    out.eval.maxDepth = some maxD ∧
    out.eval = { judged with window := window, overtravel := out.eval.overtravel } ∧
    (out.rose = true ↔ ∀ m, e.maxDepth = some m → m < d) ∧
    (found → out.seat = some d ∧ out.eval.overtravel = some 0) ∧
    (¬ found → out.seat = none ∧ out.eval.overtravel = e.overtravel)

/-! ### Result queue and links -/

/-- R157, R159, R179: TAKE_RECORD hands out the oldest record and passes the queue, or is answered
QUEUE_EMPTY; the length of a record as sent and the place of every field in it, by the numbers of R176;
and ATTN, active while a record is held. -/
def Obligations.TakeRecordHandsOutTheOldest : Prop :=
  (∀ (tag : Byte) (s : State), s.takes .cell = true →
    (∀ payload : List Byte, payload ≠ [] → payload.length ≤ 250 →
      exec (.takeRecord tag payload) s = .next (s.withReply .cell 43 tag .badLength [])) ∧
    (s.records = [] → exec (.takeRecord tag []) s =
      .next (s.withReply .cell 43 tag .queueEmpty ([0] ++ u8 s.reserved))) ∧
    (∀ r rest, s.records = r :: rest → exec (.takeRecord tag []) s =
      .next (({ s with records := rest }.withReply .cell 43 tag .ok
        (recordBytes r ++ u8 rest.length)).pass none))) ∧
  (∀ r : PressRecord,
    let b := recordBytes r
    let gs := r.groups.getD []
    b.length = 45 + 13 * gs.length ∧
    at32 b 0 = r.serial.toNat ∧ at8 b 4 = r.site.val ∧ at8 b 5 = r.typeNo.val ∧
    at32 b 6 = r.partCode.toNat ∧ at8 b 10 = headNo r.head ∧ at8 b 11 = r.attempt % 256 ∧
    at8 b 12 = r.restrike.toNat + 2 * r.samplesSaturated.toNat ∧
    at8 b 13 = r.outcome.code ∧
    at8 b 14 = r.failures.isSome.toNat + 2 * r.firstBandDepth.isSome.toNat
      + 4 * r.causes.isSome.toNat + 8 * r.contactPosition.isSome.toNat
      + 16 * r.seatDepth.isSome.toNat + 32 * r.overtravel.isSome.toNat
      + 64 * r.peakTilt.isSome.toNat + 128 * r.groups.isSome.toNat ∧
    at8 b 15 = (r.failures.map fun f => f.bandHigh.toNat + 2 * f.bandLow.toNat
      + 4 * f.groupLow.toNat + 8 * f.groupHigh.toNat).getD 0 ∧
    at32 b 16 = (r.firstBandDepth.map signed32).getD 0 ∧
    at8 b 20 = (r.causes.map fun c => c.1.code).getD 0 ∧
    at16 b 21 = (r.causes.map fun c => (c.2.map fun d => 2 ^ d.code).sum % 65536).getD 0 ∧
    at32 b 23 = (r.contactPosition.map signed32).getD 0 ∧ at32 b 27 = (r.seatDepth.map signed32).getD 0 ∧
    at32 b 31 = (r.overtravel.map signed32).getD 0 ∧ at32 b 35 = signed32 r.peakForce ∧
    at16 b 39 = (r.peakTilt.map fun i => min i 65535).getD 0 ∧
    at16 b 41 = r.samples % 65536 ∧ at8 b 43 = r.heldCount % 256 ∧ at8 b 44 = gs.length % 256 ∧
    ∀ k g, gs[k]? = some g →
      at8 b (45 + 13 * k) = g.index % 256 ∧ at8 b (46 + 13 * k) = g.status.code ∧
      at8 b (47 + 13 * k) = g.step.isSome.toNat + 2 * g.deficit.isSome.toNat ∧
      at32 b (48 + 13 * k) = (g.step.map signed32).getD 0 ∧
      at32 b (52 + 13 * k) = (g.mean.map signed32).getD 0 ∧
      at16 b (56 + 13 * k) = (g.deficit.map fun n => n % 65536).getD 0) ∧
  (∀ s : State, s.attn = true ↔ s.records ≠ [] ∧ s.resetHeld = false)

/-- R54, R104, R174: the requests that report answer with the fields as they stand, and change
nothing. R19, R48, R104, R174, R176: the place of every field in the 36 bytes of a head's sensing values,
in the cell link's STATUS, which is at most 240 bytes, in a head's STATUS and in READ_SITE's reply, and
the numbers of the enumerations. Inside R176 the layouts of a head's STATUS and of READ_SITE are logs 16
and 15, and the count of the hold time left is log 18. -/
def Obligations.ReportsChangeNothing : Prop :=
  (∀ (h : Head) (tag : Byte) (s : State), s.takes (.head h) = true →
    exec (.status h tag []) s = .next (s.withReply (.head h) 2 tag .ok (headStatusBytes s h)) ∧
    ∀ payload : List Byte, payload ≠ [] → payload.length ≤ 250 →
      exec (.status h tag payload) s = .next (s.withReply (.head h) 2 tag .badLength [])) ∧
  (∀ (tag : Byte) (s : State), s.takes .cell = true →
    exec (.cellStatus tag []) s = .next (s.withReply .cell 2 tag .ok (cellStatusBytes s)) ∧
    (∀ payload : List Byte, payload ≠ [] → payload.length ≤ 250 →
      exec (.cellStatus tag payload) s = .next (s.withReply .cell 2 tag .badLength [])) ∧
    (∀ payload : List Byte, payload.length ≠ 1 → payload.length ≤ 250 →
      exec (.readSite tag payload) s = .next (s.withReply .cell 39 tag .badLength [])) ∧
    (s.board.state = .noBoard → ∀ n : Byte,
      exec (.readSite tag [n]) s = .next (s.withReply .cell 39 tag .noBoard [])) ∧
    (s.board.state ≠ .noBoard → ∀ n : Byte, 95 < n.toNat →
      exec (.readSite tag [n]) s = .next (s.withReply .cell 39 tag .badSite [])) ∧
    (s.board.state ≠ .noBoard → ∀ (n : Byte) (site : Fin 96), site.val = n.toNat →
      exec (.readSite tag [n]) s =
        .next (s.withReply .cell 39 tag .ok (siteBytes site (s.site site))))) ∧
  (∀ f : FrontEnd,
    let b := sensingBytes f
    let marks := f.latest.corners
    b.length = 36 ∧ at32 b 0 = signed32 f.latest.gross ∧ at32 b 4 = signed32 f.latest.net ∧
    at32 b 8 = signed32 f.latest.position ∧
    at8 b 12 = marks.c0.noisy.toNat + 2 * marks.c1.noisy.toNat + 4 * marks.c2.noisy.toNat
      + 8 * marks.c3.noisy.toNat + 16 * marks.c0.saturated.toNat + 32 * marks.c1.saturated.toNat
      + 64 * marks.c2.saturated.toNat + 128 * marks.c3.saturated.toNat ∧
    at8 b 13 = f.latest.tilt.isSome.toNat ∧
    at16 b 14 = (f.latest.tilt.map fun i => min i 65535).getD 0 ∧
    (f.corners.c0.noiseRun ≤ 3 → f.corners.c1.noiseRun ≤ 3 → f.corners.c2.noiseRun ≤ 3 →
      f.corners.c3.noiseRun ≤ 3 →
      at8 b 16 = f.corners.c0.noiseRun + 4 * f.corners.c1.noiseRun + 16 * f.corners.c2.noiseRun
        + 64 * f.corners.c3.noiseRun) ∧
    at32 b 17 = signed32 f.tare.value ∧ at8 b 21 = f.tare.state.code ∧
    at8 b 22 = f.homed.toNat + 2 * f.encoderFault.toNat ∧
    at16 b 23 = f.corners.c0.gain % 65536 ∧ at16 b 25 = f.corners.c1.gain % 65536 ∧
    at16 b 27 = f.corners.c2.gain % 65536 ∧ at16 b 29 = f.corners.c3.gain % 65536 ∧
    at16 b 31 = f.noiseLimit % 65536 ∧ at16 b 33 = f.hysteresis % 65536 ∧
    at8 b 35 = f.stability.code) ∧
  (∀ s : State,
    let b := cellStatusBytes s
    b.length = 223 + 4 * s.queue.length ∧
    (∀ h, at8 b (headNo h) = (s.link (.head h)).up.toNat) ∧ at8 b 4 = s.cellLink.up.toNat ∧
    at8 b 5 = s.estop.toNat ∧ at8 b 6 = s.attn.toNat ∧ at8 b 7 = s.board.state.code ∧
    at32 b 8 = s.board.serial.toNat ∧ at8 b 12 = s.board.bypassLimit % 256 ∧
    at8 b 13 = s.board.holdTime % 256 ∧ at8 b 14 = s.period.code ∧
    (∀ h,
      let p := 15 + 43 * headNo h
      let m := s.monitor h
      let claim := match m.claim with
        | some c => some c
        | none => (s.queue.find? fun e => e.head == h).map (·.claim)
      at8 b p = m.state.code ∧ at8 b (p + 1) = (s.permitOut h).toNat ∧
      (claim = none → at8 b (p + 2) = 0 ∧ at8 b (p + 3) = 0 ∧ at8 b (p + 4) = 0) ∧
      (∀ c, claim = some c →
        at8 b (p + 2) = 1 ∧ at8 b (p + 3) = c.site.val ∧ at8 b (p + 4) = c.restrike.toNat) ∧
      (m.state ≠ .halted → at8 b (p + 5) = 0 ∧ at8 b (p + 6) = 0) ∧
      (∀ k a, m.state = .halted → m.stroke = some k → k.abort = some a →
        at8 b (p + 5) = 1 ∧ at8 b (p + 6) = a.primary.code) ∧
      (b.drop (p + 7)).take 36 = sensingBytes (s.front h)) ∧
    (∀ z : Fin 32, at8 b (187 + z.val) = ((s.holder z).map headNo).getD 255) ∧
    at8 b 219 = s.queue.length % 256 ∧
    (∀ (i : Nat) e, s.queue[i]? = some e →
      at8 b (220 + 4 * i) = headNo e.head ∧ at8 b (221 + 4 * i) = e.claim.site.val ∧
      at8 b (222 + 4 * i) = e.claim.restrike.toNat ∧ at8 b (223 + 4 * i) = e.bypass % 256) ∧
    at8 b (220 + 4 * s.queue.length) = s.records.length % 256 ∧
    at8 b (221 + 4 * s.queue.length) = s.reserved % 256 ∧
    at8 b (222 + 4 * s.queue.length) = s.pendingCount % 256) ∧
  (∀ (s : State) (h : Head), HeadStatusLaid s h (headStatusBytes s h)) ∧
  (∀ n : Fin 96, siteBytes n none = u8 n.val ++ List.replicate 26 0) ∧
  (∀ (n : Fin 96) (e : SiteEntry), SiteLaid n e (siteBytes n (some e))) ∧
  ([HeadState.idle, .waiting, .armed, .approach, .engage, .seating, .retract, .halted].map
      HeadState.code = List.range 8 ∧
    [BoardState.noBoard, .isOpen, .aborting].map BoardState.code = List.range 3 ∧
    [TareState.settling, .stable, .outOfRange].map TareState.code = List.range 3 ∧
    [TypeState.absent, .ready, .draining, .broken].map TypeState.code = List.range 4 ∧
    [Period.us250, .us500, .us1000, .us2000].map Period.code = List.range 4 ∧
    [StabilityTime.ms50, .ms100, .ms200, .ms400].map StabilityTime.code = List.range 4 ∧
    [StrokeOutcome.pass, .reject, .abort].map StrokeOutcome.code = List.range 3 ∧
    [GroupStatus.pass, .low, .high, .jointPass, .jointLow, .jointHigh, .notReached].map
      GroupStatus.code = List.range 7 ∧
    [ClaimReason.siteChanged, .typeBroken, .boardClosed, .boardAbort, .estop, .linkDown,
      .supervisorReset].map ClaimReason.code = List.range 7 ∧
    [Cause.overforce, .overrange, .encoder, .tilt, .overtravel, .depthLimit, .noContact, .stalled,
      .sensorNoise, .strokeTime, .estop, .linkDown, .boardAbort, .headStop, .supervisorReset].map
      Cause.code = (List.range 15).map (· + 1) ∧
    ∀ (h : Head) (g : GrantFrom) (d : Int),
      [SiteState.empty, .loaded, .claimed h g, .pressing h g, .seated d, .rejected, .lockedOut].map
        SiteState.code = (List.range 7).map (· + 1)) ∧
  (∀ s : State, s.queue.length ≤ 4 → (cellStatusBytes s).length + 1 ≤ 240)

/-- R177: the places of kind, tag, length, payload and check byte in a frame. R165: the check byte, one
byte after another from 0: exclusive OR, then eight shifts, each with 7 where a 1 leaves; over a whole
frame the running value ends at 0. R163, R164: which characters make a bad assembly, which assembly is a
valid frame, and that the bytes of a frame received with good stop bits give it back. -/
def Obligations.FrameBytesRoundTrip : Prop :=
  (∀ (kind tag : Byte) (payload : List Byte), payload.length ≤ 250 →
    let bytes := frameBytes kind tag payload
    let n := payload.length
    bytes.length = n + 4 ∧ bytes[0]? = some kind ∧ bytes[1]? = some tag ∧ at8 bytes 2 = n ∧
    (bytes.drop 3).take n = payload ∧ bytes[3 + n]? = some (checkByte (bytes.take (3 + n))) ∧
    checkByte bytes = 0 ∧
    ((bytes.map fun b => ({ byte := b, stopAtMark := true } : RxChar)).foldl Assembly.receive
        { bytes := [], bad := false }).frame =
      some { kind := kind, tag := tag, payload := payload }) ∧
  (checkByte [] = 0 ∧ ∀ (bytes : List Byte) (b : Byte), checkByte (bytes ++ [b]) =
    (List.range 8).foldl (fun (v : Byte) _ => if 128 ≤ v.toNat then (v <<< 1) ^^^ 7 else v <<< 1)
      (checkByte bytes ^^^ b)) ∧
  (∀ chars : List RxChar,
    let a := chars.foldl Assembly.receive { bytes := [], bad := false }
    (a.bad = true ↔ (∃ c ∈ chars, c.stopAtMark = false) ∨ 255 ≤ chars.length) ∧
    (a.bad = false → a.bytes = chars.map (·.byte))) ∧
  (∀ (a : Assembly) (f : Frame), a.frame = some f ↔
    a.bad = false ∧ f.payload.length ≤ 250 ∧ a.bytes = frameBytes f.kind f.tag f.payload)

/-- R164, R166, R169, R171: the frames that are discarded: one that fails its check, any but an empty
HELLO on a DOWN link, and any where 16 frames wait, which sets the overrun flag; whatever its kind, a
frame that comes as one of the three frame commands is the request of its link and kind. Log 9 says
which commands carry such frames, log 10 that a frame is delivered whole, and log 6 that none is
received while RESET is asserted. -/
def Obligations.FramesAreDiscarded : Prop :=
  (∀ (l : Link) (s : State), s.resetHeld = false →
    (∀ chars, (chars.foldl Assembly.receive { bytes := [], bad := false }).frame = none →
      (s.link l).assembly = [] → (s.link l).assemblyBad = false →
      exec (.invalidFrame l chars) s = .next s) ∧
    (∀ chars f, (chars.foldl Assembly.receive { bytes := [], bad := false }).frame = some f →
      (s.link l).assembly = [] → (s.link l).assemblyBad = false →
      exec (.invalidFrame l chars) s = exec (.unknownRequest l f.kind f.tag f.payload) s) ∧
    (∀ (kind tag : Byte) (payload : List Byte), payload.length ≤ 250 →
      ((s.link l).up = false → ¬ (kind = 1 ∧ payload = []) →
        exec (.downLinkDiscard l kind tag payload) s = .next s) ∧
      ((s.link l).up = true → 16 ≤ (s.link l).out.length →
        exec (.overrunDiscard l kind tag payload) s =
          .next (s.setLink l { s.link l with overrun := true })))) ∧
  (∀ (l : Link) (kind tag : Byte) (payload : List Byte) (s : State),
    exec (.downLinkDiscard l kind tag payload) s = exec (.unknownRequest l kind tag payload) s ∧
    exec (.overrunDiscard l kind tag payload) s = exec (.unknownRequest l kind tag payload) s) ∧
  (∀ (c : Instr) (l : Link) (f : Frame) (s : State), requestFrame c = some (l, f) →
    exec c s = exec (.unknownRequest l f.kind f.tag f.payload) s ∧
    (s.resetHeld = true → exec c s = .next s))

/-- R168, R169, R172: HELLO on a DOWN and on an UP link, a kind that is not a request of its link, and
the frame of a reply; and the numbers of the reply status codes (section 9.5). -/
def Obligations.HelloAndUnknownRequests : Prop :=
  (∀ (l : Link) (tag : Byte) (s : State), s.resetHeld = false →
    let number := match l with
      | .head h => headNo h
      | .cell => 4
    ((s.link l).up = false → (s.link l).out = [] →
      exec (.hello l tag []) s = .next (s.setLink l { s.link l with
        up := true
        out := [{ kind := 129, tag := tag, payload := [0] ++ u8 number ++ [0] }] })) ∧
    (∀ payload : List Byte, (s.link l).up = false → payload ≠ [] →
      exec (.hello l tag payload) s = .next s) ∧
    (s.takes l = true →
      exec (.hello l tag []) s = .next (s.withReply l 1 tag .ok (u8 number ++ [1]))) ∧
    (∀ payload : List Byte, s.takes l = true → payload ≠ [] → payload.length ≤ 250 →
      exec (.hello l tag payload) s = .next (s.withReply l 1 tag .badLength [])) ∧
    (∀ (kind : Byte) (payload : List Byte), s.takes l = true →
      kind.toNat ∉ requestKinds l → payload.length ≤ 250 →
      exec (.unknownRequest l kind tag payload) s =
        .next (s.withReply l kind tag .unknownRequest [kind]))) ∧
  (∀ (kind tag : Byte) (r : Reply), (replyFrame kind tag r).tag = tag ∧
    (replyFrame kind tag r).payload = u8 r.status.code ++ r.fields ∧ r.status.code < 32 ∧
    (kind.toNat < 128 → (replyFrame kind tag r).kind.toNat = kind.toNat + 128) ∧
    (128 ≤ kind.toNat → (replyFrame kind tag r).kind = 255)) ∧
  ([Status.ok, .clamped, .unknownRequest, .badLength, .badValue, .noBoard, .boardBusy, .badSite,
      .siteState, .typeAbsent, .typeBroken, .typeInUse, .envelopeInvalid].map Status.code =
    List.range 13 ∧
  [Status.updatePending, .headState, .tareUnstable, .notHomed, .forcePresent, .claimLost, .zoneBusy,
      .typeDraining, .noRecordSpace, .estopActive, .queueEmpty].map Status.code =
    (List.range 11).map (· + 14))

/-- R162, R170, R171: the oldest frame leaves the queue as its transmission begins, with the overrun
flag in the most significant bit of its status byte, and the flag is cleared; its end frees the line.
What a start and an end say of the time is log 4. The claims due before that time expire first
(ArmedClaimsAreGivenUp); here none is due. -/
def Obligations.TransmissionTakesTheOldestFrame : Prop :=
  ∀ (l : Link) (s : State),
    let k := s.link l
    (∀ f rest st fields, k.tx = none → k.out = f :: rest → f.payload = st :: fields →
      s.quietUntil (k.idleSince + 40) →
      let payload := (if k.overrun then st ||| 128 else st) :: fields
      let clock := max s.clock (k.idleSince + 40)
      exec (.frameTransmitStart l) s = .next ({ s with clock := clock }.setLink l { k with
        out := rest, overrun := false
        tx := some { bytes := frameBytes f.kind f.tag payload, since := clock } })) ∧
    (k.tx ≠ none ∨ k.out = [] → exec (.frameTransmitStart l) s = .next s) ∧
    (∀ x, k.tx = some x → s.quietUntil (x.since + 10 * x.bytes.length) →
      let clock := max s.clock (x.since + 10 * x.bytes.length)
      exec (.frameTransmissionEnd l) s =
        .next ({ s with clock := clock }.setLink l { k with tx := none, idleSince := clock })) ∧
    (k.tx = none → exec (.frameTransmissionEnd l) s = .next s)

/-! ### Invariants -/

/-- State.reset meets every law below. The values there that the manual does not give are logs 2, 6, 7,
8 and 23. -/
def Obligations.ResetStateIsSound : Prop :=
  LinksSound State.reset ∧ FrontsSound State.reset ∧ SitesSound State.reset ∧
    ZoneLaw State.reset ∧ SlotLaw State.reset ∧ UserLaw State.reset ∧ HoldLaw State.reset

/-- Every step keeps the ranges of the links (R166, R167, R170), of the front ends (section 1, R15),
of the library's slots (R22, section 2.3), of the sites (R48, R55, R60) and of the heads (R75, R76,
R87, R88, R135, R136). -/
def Obligations.EveryStepKeepsTheRanges : Prop :=
  ∀ s t : State, step s = .next t →
    (LinksSound s → LinksSound t) ∧ (FrontsSound s → FrontsSound t) ∧
    (LibrarySound s → LibrarySound t) ∧ (SitesSound s → SitesSound t) ∧
    (HeadsSound s → HeadsSound t)

/-- Every step keeps the law of the claim queue (R65, R83, R87), the law of sites and heads (R49), and
the law of the hold timers: no armed claim outlives the first timebase event at or after the end of its
hold (R76). -/
def Obligations.EveryStepKeepsTheSiteLaw : Prop :=
  ∀ s t : State, step s = .next t →
    (ClaimsSound s → ClaimsSound t) ∧ (SiteLaw s → SiteLaw t) ∧ (HoldLaw s → HoldLaw t)

/-- Every step keeps the law of zones (R64). -/
def Obligations.EveryStepKeepsTheZoneLaw : Prop :=
  ∀ s t : State, step s = .next t → ZoneLaw s → ZoneLaw t

/-- Every step keeps the law of result slots (R148). -/
def Obligations.EveryStepKeepsTheSlotLaw : Prop :=
  ∀ s t : State, step s = .next t → SlotLaw s → SlotLaw t

/-- Every step keeps the law of users (R28). -/
def Obligations.EveryStepKeepsTheUserLaw : Prop :=
  ∀ s t : State, step s = .next t → UserLaw s → UserLaw t

/-- R26, R64, R76, R88, R148: what the laws say of a sound state: no two heads press or are armed inside
each other's keep-out set; PERMIT is active in a stroke state with ESTOP and RESET released alone; at
most 64 records and reservations; at most four pending records, and four users of a type; an armed claim
lives for less than the hold time plus 10 ms. -/
def Obligations.LawsKeepHeadsApart : Prop :=
  (∀ (s : State) (h h' : Head) (c c' : Claim), ZoneLaw s → h ≠ h' →
    (s.monitor h).state.active = true → (s.monitor h').state.active = true →
    (s.monitor h).claim = some c → (s.monitor h').claim = some c' →
    c.site ≠ c'.site ∧ ∀ z ∈ s.keepOut c.site, z ∉ s.keepOut c'.site) ∧
  (∀ (s : State) (h : Head), HeadsSound s →
    (s.permitOut h = true ↔
      ((s.monitor h).state = .approach ∨ (s.monitor h).state = .engage ∨
        (s.monitor h).state = .seating) ∧ s.estop = false ∧ s.resetHeld = false)) ∧
  (∀ s : State, SlotLaw s → s.records.length + s.reserved ≤ 64) ∧
  (∀ s : State, UserLaw s → s.pendingCount ≤ 4 ∧ ∀ t, (s.typeSlot t).users ≤ 4) ∧
  (∀ (s : State) (h : Head) (granted : Nat), HoldLaw s → (s.monitor h).grantTime = some granted →
    s.clock < granted + s.board.holdTime * 100000 + 10000)
end

