-- ==== Sys2Proof/Laws/Blocks.lean ====
section
/-! SUPPORT. What each stage of the Profile Evaluator leaves as it is, and the cases of the operations on
a type's slot and on a site's entry. -/

namespace Sys2Proof.Machine

/-! ### The evaluation state, field by field -/

variable (e : Evaluation) (gs : List Group) (k : Nat) (maxD d f : Int)

@[simp] theorem Evaluation.closeChain_depth : (e.closeChain gs k f).depth = e.depth := rfl

@[simp] theorem Evaluation.closeChain_maxDepth : (e.closeChain gs k f).maxDepth = e.maxDepth := rfl

@[simp] theorem Evaluation.closeChain_pendingBaseline :
    (e.closeChain gs k f).pendingBaseline = e.pendingBaseline := rfl

@[simp] theorem Evaluation.closeChain_firstBandDepth :
    (e.closeChain gs k f).firstBandDepth = e.firstBandDepth := rfl

@[simp] theorem Evaluation.closeChain_window : (e.closeChain gs k f).window = e.window := rfl

@[simp] theorem Evaluation.closeChain_overtravel :
    (e.closeChain gs k f).overtravel = e.overtravel := rfl

@[simp] theorem Evaluation.closeChain_failures_bandHigh :
    (e.closeChain gs k f).failures.bandHigh = e.failures.bandHigh := rfl

@[simp] theorem Evaluation.closeChain_failures_bandLow :
    (e.closeChain gs k f).failures.bandLow = e.failures.bandLow := rfl

@[simp] theorem Evaluation.closeChain_captures : (e.closeChain gs k f).captures = e.captures := rfl

@[simp] theorem Evaluation.captureStep_depth : (e.captureStep k f).depth = e.depth := rfl

@[simp] theorem Evaluation.captureStep_maxDepth : (e.captureStep k f).maxDepth = e.maxDepth := rfl

@[simp] theorem Evaluation.captureStep_pendingBaseline :
    (e.captureStep k f).pendingBaseline = e.pendingBaseline := rfl

@[simp] theorem Evaluation.captureStep_firstBandDepth :
    (e.captureStep k f).firstBandDepth = e.firstBandDepth := rfl

@[simp] theorem Evaluation.captureStep_window : (e.captureStep k f).window = e.window := rfl

@[simp] theorem Evaluation.captureStep_overtravel :
    (e.captureStep k f).overtravel = e.overtravel := rfl

@[simp] theorem Evaluation.captureStep_failures_bandHigh :
    (e.captureStep k f).failures.bandHigh = e.failures.bandHigh := rfl

@[simp] theorem Evaluation.captureStep_failures_bandLow :
    (e.captureStep k f).failures.bandLow = e.failures.bandLow := rfl

@[simp] theorem Evaluation.captureStep_results : (e.captureStep k f).results = e.results := rfl

@[simp] theorem Evaluation.captureStep_failures : (e.captureStep k f).failures = e.failures := rfl

@[simp] theorem Evaluation.captureStep_chain : (e.captureStep k f).chain = e.chain := rfl

@[simp] theorem Evaluation.takeSteps_depth (rest : List Group) :
    (Evaluation.takeSteps gs maxD f k rest e).depth = e.depth := by
  induction rest generalizing e k with
  | nil => rfl
  | cons g rest ih =>
    unfold Evaluation.takeSteps
    simp only [ih]
    split
    · split
      · split <;> simp
      · simp
    · rfl

@[simp] theorem Evaluation.takeSteps_maxDepth (rest : List Group) :
    (Evaluation.takeSteps gs maxD f k rest e).maxDepth = e.maxDepth := by
  induction rest generalizing e k with
  | nil => rfl
  | cons g rest ih =>
    unfold Evaluation.takeSteps
    simp only [ih]
    split
    · split
      · split <;> simp
      · simp
    · rfl

@[simp] theorem Evaluation.takeSteps_pendingBaseline (rest : List Group) :
    (Evaluation.takeSteps gs maxD f k rest e).pendingBaseline = e.pendingBaseline := by
  induction rest generalizing e k with
  | nil => rfl
  | cons g rest ih =>
    unfold Evaluation.takeSteps
    simp only [ih]
    split
    · split
      · split <;> simp
      · simp
    · rfl

@[simp] theorem Evaluation.takeSteps_firstBandDepth (rest : List Group) :
    (Evaluation.takeSteps gs maxD f k rest e).firstBandDepth = e.firstBandDepth := by
  induction rest generalizing e k with
  | nil => rfl
  | cons g rest ih =>
    unfold Evaluation.takeSteps
    simp only [ih]
    split
    · split
      · split <;> simp
      · simp
    · rfl

@[simp] theorem Evaluation.takeSteps_window (rest : List Group) :
    (Evaluation.takeSteps gs maxD f k rest e).window = e.window := by
  induction rest generalizing e k with
  | nil => rfl
  | cons g rest ih =>
    unfold Evaluation.takeSteps
    simp only [ih]
    split
    · split
      · split <;> simp
      · simp
    · rfl

@[simp] theorem Evaluation.takeSteps_overtravel (rest : List Group) :
    (Evaluation.takeSteps gs maxD f k rest e).overtravel = e.overtravel := by
  induction rest generalizing e k with
  | nil => rfl
  | cons g rest ih =>
    unfold Evaluation.takeSteps
    simp only [ih]
    split
    · split
      · split <;> simp
      · simp
    · rfl

@[simp] theorem Evaluation.takeSteps_failures_bandHigh (rest : List Group) :
    (Evaluation.takeSteps gs maxD f k rest e).failures.bandHigh = e.failures.bandHigh := by
  induction rest generalizing e k with
  | nil => rfl
  | cons g rest ih =>
    unfold Evaluation.takeSteps
    simp only [ih]
    split
    · split
      · split <;> simp
      · simp
    · rfl

@[simp] theorem Evaluation.takeSteps_failures_bandLow (rest : List Group) :
    (Evaluation.takeSteps gs maxD f k rest e).failures.bandLow = e.failures.bandLow := by
  induction rest generalizing e k with
  | nil => rfl
  | cons g rest ih =>
    unfold Evaluation.takeSteps
    simp only [ih]
    split
    · split
      · split <;> simp
      · simp
    · rfl

@[simp] theorem Evaluation.takeGroups_depth (before : Option Int) :
    (e.takeGroups gs before maxD f).depth = e.depth := by simp [Evaluation.takeGroups]

@[simp] theorem Evaluation.takeGroups_maxDepth (before : Option Int) :
    (e.takeGroups gs before maxD f).maxDepth = e.maxDepth := by simp [Evaluation.takeGroups]

@[simp] theorem Evaluation.takeGroups_firstBandDepth (before : Option Int) :
    (e.takeGroups gs before maxD f).firstBandDepth = e.firstBandDepth := by simp [Evaluation.takeGroups]

@[simp] theorem Evaluation.takeGroups_window (before : Option Int) :
    (e.takeGroups gs before maxD f).window = e.window := by simp [Evaluation.takeGroups]

@[simp] theorem Evaluation.takeGroups_overtravel (before : Option Int) :
    (e.takeGroups gs before maxD f).overtravel = e.overtravel := by simp [Evaluation.takeGroups]

@[simp] theorem Evaluation.takeGroups_failures_bandHigh (before : Option Int) :
    (e.takeGroups gs before maxD f).failures.bandHigh = e.failures.bandHigh := by simp [Evaluation.takeGroups]

@[simp] theorem Evaluation.takeGroups_failures_bandLow (before : Option Int) :
    (e.takeGroups gs before maxD f).failures.bandLow = e.failures.bandLow := by simp [Evaluation.takeGroups]

@[simp] theorem Evaluation.takeGroups_pendingBaseline (before : Option Int) :
    (e.takeGroups gs before maxD f).pendingBaseline = pendingAfter gs maxD f := by
  simp [Evaluation.takeGroups]

@[simp] theorem Evaluation.checkBands_depth : (e.checkBands gs maxD d f).depth = e.depth := rfl

@[simp] theorem Evaluation.checkBands_maxDepth :
    (e.checkBands gs maxD d f).maxDepth = e.maxDepth := rfl

@[simp] theorem Evaluation.checkBands_pendingBaseline :
    (e.checkBands gs maxD d f).pendingBaseline = e.pendingBaseline := rfl

@[simp] theorem Evaluation.checkBands_window : (e.checkBands gs maxD d f).window = e.window := rfl

@[simp] theorem Evaluation.checkBands_overtravel :
    (e.checkBands gs maxD d f).overtravel = e.overtravel := rfl

@[simp] theorem Evaluation.checkBands_captures :
    (e.checkBands gs maxD d f).captures = e.captures := rfl

@[simp] theorem Evaluation.checkBands_chain : (e.checkBands gs maxD d f).chain = e.chain := rfl

@[simp] theorem Evaluation.checkBands_results :
    (e.checkBands gs maxD d f).results = e.results := rfl

@[simp] theorem Evaluation.checkBands_failures_groupLow :
    (e.checkBands gs maxD d f).failures.groupLow = e.failures.groupLow := rfl

@[simp] theorem Evaluation.checkBands_failures_groupHigh :
    (e.checkBands gs maxD d f).failures.groupHigh = e.failures.groupHigh := rfl

@[simp] theorem Evaluation.judgeSample_depth (r : TypeRecord) (restrike : Bool)
    (before : Option Int) : (e.judgeSample r restrike before maxD d f).depth = e.depth := by
  unfold Evaluation.judgeSample
  split
  · rfl
  · split <;> simp

@[simp] theorem Evaluation.judgeSample_maxDepth (r : TypeRecord) (restrike : Bool)
    (before : Option Int) : (e.judgeSample r restrike before maxD d f).maxDepth = e.maxDepth := by
  unfold Evaluation.judgeSample
  split
  · rfl
  · split <;> simp

@[simp] theorem Evaluation.judgeSample_window (r : TypeRecord) (restrike : Bool)
    (before : Option Int) : (e.judgeSample r restrike before maxD d f).window = e.window := by
  unfold Evaluation.judgeSample
  split
  · rfl
  · split <;> simp

@[simp] theorem Evaluation.judgeSample_overtravel (r : TypeRecord) (restrike : Bool)
    (before : Option Int) :
    (e.judgeSample r restrike before maxD d f).overtravel = e.overtravel := by
  unfold Evaluation.judgeSample
  split
  · rfl
  · split <;> simp

/-- A captured baseline survives the step captures. -/
theorem Evaluation.takeSteps_baseline (rest : List Group) (j : Nat) :
    ((Evaluation.takeSteps gs maxD f k rest e).captures[j]?).map (·.baseline) =
      (e.captures[j]?).map (·.baseline) := by
  have hm : ∀ (cs : List GroupCapture) (i : Nat),
      ((cs.modify i fun c => { c with step := some f })[j]?).map (·.baseline) =
        (cs[j]?).map (·.baseline) := by
    intro cs i
    rw [List.getElem?_modify]
    split <;> cases cs[j]? <;> rfl
  induction rest generalizing e k with
  | nil => rfl
  | cons g rest ih =>
    unfold Evaluation.takeSteps
    rw [ih]
    split
    · split
      · split
        · exact hm _ _
        · exact hm _ _
      · exact hm _ _
    · rfl

/-! ### Stored records (R33) -/

/-- A read succeeds exactly where no word has two flipped bits. -/
theorem StoredRecord.readable_iff (r : StoredRecord) :
    r.readable = true ↔ ∀ f ∈ r.flips, r.flippedIn f.1 < 2 := by
  unfold StoredRecord.readable StoredRecord.uncorrectable
  rw [List.isEmpty_iff, List.filter_eq_nil_iff]
  simp

/-- A readable record is left with no flipped bit. -/
theorem StoredRecord.corrected_of_readable {r : StoredRecord} (h : r.readable = true) :
    r.corrected = { r with flips := [] } := by
  unfold StoredRecord.readable at h
  unfold StoredRecord.corrected
  rw [List.isEmpty_iff.1 h]

/-- A readable record corrects every flipped bit. -/
theorem StoredRecord.correctable_of_readable {r : StoredRecord} (h : r.readable = true) :
    r.correctable = r.flips.length := by
  unfold StoredRecord.correctable
  rw [List.countP_eq_length]
  intro f hf
  have h1 := (r.readable_iff.1 h) f hf
  have h2 : 0 < r.flippedIn f.1 := List.countP_pos_iff.2 ⟨f, hf, by simp⟩
  simp only [beq_iff_eq]
  omega

/-- All that an installation does (R29, R36): nothing without a pending record; READY with it where
it is readable; BROKEN otherwise. -/
theorem TypeSlot.install_cases (slot : TypeSlot) :
    (slot.waiting = none ∧ slot.install = slot) ∨
    (∃ r, slot.waiting = some r ∧ r.readable = true ∧ slot.install = slot.installed r) ∨
    (∃ r, slot.waiting = some r ∧ r.readable = false ∧ slot.install = slot.installFailed r) := by
  unfold TypeSlot.install
  cases hw : slot.waiting with
  | none => exact .inl ⟨rfl, rfl⟩
  | some r =>
    cases hr : r.readable with
    | false => exact .inr (.inr ⟨r, rfl, hr, by simp [hr]⟩)
    | true => exact .inr (.inl ⟨r, rfl, hr, by simp [hr]⟩)

/-- All that placing a record does (R25, R27). -/
theorem TypeSlot.place_cases (slot : TypeSlot) (r : TypeRecord) :
    (slot.state = .draining ∧ slot.place r = { slot with waiting := some (.fresh r) }) ∨
    (slot.state ≠ .draining ∧ slot.state ≠ .absent ∧ 0 < slot.users ∧
      slot.place r = { slot with state := .draining, waiting := some (.fresh r) }) ∨
    (slot.state ≠ .draining ∧ (slot.state = .absent ∨ slot.users = 0) ∧
      slot.place r = { slot with state := .ready, active := some (.fresh r), faults := 0 }) := by
  unfold TypeSlot.place
  by_cases h : slot.state = .draining
  · exact .inl ⟨h, by rw [if_pos h]⟩
  · by_cases h' : slot.state ≠ .absent ∧ 0 < slot.users
    · exact .inr (.inl ⟨h, h'.1, h'.2, by rw [if_neg h, if_pos h']⟩)
    · refine .inr (.inr ⟨h, ?_, by rw [if_neg h, if_neg h']⟩)
      by_cases ha : slot.state = .absent
      · exact .inl ha
      · exact .inr (by by_contra hc; exact h' ⟨ha, by omega⟩)

/-! ### Sites -/

/-- A site that is not CLAIMED is left by the end of a claim (R57). -/
theorem SiteEntry.unclaim_of_not_claimed {e : SiteEntry} (h : ∀ x g, e.state ≠ .claimed x g) :
    e.unclaim = e := by
  unfold SiteEntry.unclaim
  split
  · rename_i x g hx; exact absurd hx (h x g)
  · rfl

@[simp] theorem SiteEntry.unclaim_typeNo (e : SiteEntry) : e.unclaim.typeNo = e.typeNo := by
  unfold SiteEntry.unclaim; split <;> rfl

@[simp] theorem SiteEntry.unclaim_keepOut (e : SiteEntry) : e.unclaim.keepOut = e.keepOut := by
  unfold SiteEntry.unclaim; split <;> rfl

@[simp] theorem SiteEntry.apply_typeNo (e : SiteEntry) (o : Ending) :
    (e.apply o).typeNo = e.typeNo := by
  unfold SiteEntry.apply
  split
  · split
    · rfl
    · rfl
    · split <;> rfl
  · rfl

@[simp] theorem SiteEntry.apply_keepOut (e : SiteEntry) (o : Ending) :
    (e.apply o).keepOut = e.keepOut := by
  unfold SiteEntry.apply
  split
  · split
    · rfl
    · rfl
    · split <;> rfl
  · rfl

end Sys2Proof.Machine
end

