-- ==== Sys2Proof/Laws/State.lean ====
section
/-! SUPPORT. One lemma per field of State for each of the named updates of Machine/Ops.lean, and what
each named read gives after each of them, so that no proof unfolds a record update. -/

namespace Sys2Proof

/-! ### Items per head -/

@[simp] theorem PerHead.get_set_self {α : Type} (p : PerHead α) (h : Head) (a : α) :
    (p.set h a).get h = a := by cases h <;> rfl

theorem PerHead.get_set {α : Type} (p : PerHead α) (h k : Head) (a : α) :
    (p.set h a).get k = if k = h then a else p.get k := by cases h <;> cases k <;> rfl

@[simp] theorem PerHead.get_set_of_ne {α : Type} (p : PerHead α) {h k : Head} (a : α) (hk : k ≠ h) :
    (p.set h a).get k = p.get k := by simp [PerHead.get_set, hk]

@[simp] theorem PerHead.set_get {α : Type} (p : PerHead α) (h : Head) : p.set h (p.get h) = p := by
  cases h <;> rfl

@[simp] theorem PerHead.set_set {α : Type} (p : PerHead α) (h : Head) (a b : α) :
    (p.set h a).set h b = p.set h b := by cases h <;> rfl

theorem PerHead.set_comm {α : Type} (p : PerHead α) {h k : Head} (a b : α) (hk : h ≠ k) :
    (p.set h a).set k b = (p.set k b).set h a := by cases h <;> cases k <;> first | rfl | exact absurd rfl hk

@[simp] theorem PerHead.get_map {α β : Type} (f : α → β) (p : PerHead α) (h : Head) :
    (p.map f).get h = f (p.get h) := by cases h <;> rfl

theorem PerHead.ext_get {α : Type} {p q : PerHead α} (h : ∀ k, p.get k = q.get k) : p = q := by
  obtain ⟨a, b, c, d⟩ := p
  obtain ⟨a', b', c', d'⟩ := q
  have h0 := h .h0; have h1 := h .h1; have h2 := h .h2; have h3 := h .h3
  simp only [PerHead.get] at h0 h1 h2 h3
  subst h0 h1 h2 h3; rfl

theorem PerHead.mem_toList {α : Type} (p : PerHead α) (a : α) :
    a ∈ p.toList ↔ ∃ h, p.get h = a := by
  constructor
  · intro hm
    simp only [PerHead.toList, List.mem_cons, List.not_mem_nil, or_false] at hm
    rcases hm with rfl | rfl | rfl | rfl
    exacts [⟨.h0, rfl⟩, ⟨.h1, rfl⟩, ⟨.h2, rfl⟩, ⟨.h3, rfl⟩]
  · rintro ⟨h, rfl⟩
    cases h <;> simp [PerHead.toList, PerHead.get]

end Sys2Proof

namespace Sys2Proof.Machine

/-! ### The fields after each update -/


/-! `State.setFront` -/

@[simp] theorem State.setFront_pending (s : State) (h : Head) (f : FrontEnd) :
    (s.setFront h f).pending = s.pending := rfl

@[simp] theorem State.setFront_clock (s : State) (h : Head) (f : FrontEnd) :
    (s.setFront h f).clock = s.clock := rfl

@[simp] theorem State.setFront_resetHeld (s : State) (h : Head) (f : FrontEnd) :
    (s.setFront h f).resetHeld = s.resetHeld := rfl

@[simp] theorem State.setFront_estop (s : State) (h : Head) (f : FrontEnd) :
    (s.setFront h f).estop = s.estop := rfl

@[simp] theorem State.setFront_period (s : State) (h : Head) (f : FrontEnd) :
    (s.setFront h f).period = s.period := rfl

@[simp] theorem State.setFront_library (s : State) (h : Head) (f : FrontEnd) :
    (s.setFront h f).library = s.library := rfl

@[simp] theorem State.setFront_board (s : State) (h : Head) (f : FrontEnd) :
    (s.setFront h f).board = s.board := rfl

@[simp] theorem State.setFront_sites (s : State) (h : Head) (f : FrontEnd) :
    (s.setFront h f).sites = s.sites := rfl

@[simp] theorem State.setFront_zones (s : State) (h : Head) (f : FrontEnd) :
    (s.setFront h f).zones = s.zones := rfl

@[simp] theorem State.setFront_queue (s : State) (h : Head) (f : FrontEnd) :
    (s.setFront h f).queue = s.queue := rfl

@[simp] theorem State.setFront_monitors (s : State) (h : Head) (f : FrontEnd) :
    (s.setFront h f).monitors = s.monitors := rfl

@[simp] theorem State.setFront_records (s : State) (h : Head) (f : FrontEnd) :
    (s.setFront h f).records = s.records := rfl

@[simp] theorem State.setFront_headLinks (s : State) (h : Head) (f : FrontEnd) :
    (s.setFront h f).headLinks = s.headLinks := rfl

@[simp] theorem State.setFront_cellLink (s : State) (h : Head) (f : FrontEnd) :
    (s.setFront h f).cellLink = s.cellLink := rfl


/-! `State.setMonitor` -/

@[simp] theorem State.setMonitor_pending (s : State) (h : Head) (m : Monitor) :
    (s.setMonitor h m).pending = s.pending := rfl

@[simp] theorem State.setMonitor_clock (s : State) (h : Head) (m : Monitor) :
    (s.setMonitor h m).clock = s.clock := rfl

@[simp] theorem State.setMonitor_resetHeld (s : State) (h : Head) (m : Monitor) :
    (s.setMonitor h m).resetHeld = s.resetHeld := rfl

@[simp] theorem State.setMonitor_estop (s : State) (h : Head) (m : Monitor) :
    (s.setMonitor h m).estop = s.estop := rfl

@[simp] theorem State.setMonitor_period (s : State) (h : Head) (m : Monitor) :
    (s.setMonitor h m).period = s.period := rfl

@[simp] theorem State.setMonitor_fronts (s : State) (h : Head) (m : Monitor) :
    (s.setMonitor h m).fronts = s.fronts := rfl

@[simp] theorem State.setMonitor_library (s : State) (h : Head) (m : Monitor) :
    (s.setMonitor h m).library = s.library := rfl

@[simp] theorem State.setMonitor_board (s : State) (h : Head) (m : Monitor) :
    (s.setMonitor h m).board = s.board := rfl

@[simp] theorem State.setMonitor_sites (s : State) (h : Head) (m : Monitor) :
    (s.setMonitor h m).sites = s.sites := rfl

@[simp] theorem State.setMonitor_zones (s : State) (h : Head) (m : Monitor) :
    (s.setMonitor h m).zones = s.zones := rfl

@[simp] theorem State.setMonitor_queue (s : State) (h : Head) (m : Monitor) :
    (s.setMonitor h m).queue = s.queue := rfl

@[simp] theorem State.setMonitor_records (s : State) (h : Head) (m : Monitor) :
    (s.setMonitor h m).records = s.records := rfl

@[simp] theorem State.setMonitor_headLinks (s : State) (h : Head) (m : Monitor) :
    (s.setMonitor h m).headLinks = s.headLinks := rfl

@[simp] theorem State.setMonitor_cellLink (s : State) (h : Head) (m : Monitor) :
    (s.setMonitor h m).cellLink = s.cellLink := rfl


/-! `State.setType` -/

@[simp] theorem State.setType_pending (s : State) (t : Fin 48) (slot : TypeSlot) :
    (s.setType t slot).pending = s.pending := rfl

@[simp] theorem State.setType_clock (s : State) (t : Fin 48) (slot : TypeSlot) :
    (s.setType t slot).clock = s.clock := rfl

@[simp] theorem State.setType_resetHeld (s : State) (t : Fin 48) (slot : TypeSlot) :
    (s.setType t slot).resetHeld = s.resetHeld := rfl

@[simp] theorem State.setType_estop (s : State) (t : Fin 48) (slot : TypeSlot) :
    (s.setType t slot).estop = s.estop := rfl

@[simp] theorem State.setType_period (s : State) (t : Fin 48) (slot : TypeSlot) :
    (s.setType t slot).period = s.period := rfl

@[simp] theorem State.setType_fronts (s : State) (t : Fin 48) (slot : TypeSlot) :
    (s.setType t slot).fronts = s.fronts := rfl

@[simp] theorem State.setType_board (s : State) (t : Fin 48) (slot : TypeSlot) :
    (s.setType t slot).board = s.board := rfl

@[simp] theorem State.setType_sites (s : State) (t : Fin 48) (slot : TypeSlot) :
    (s.setType t slot).sites = s.sites := rfl

@[simp] theorem State.setType_zones (s : State) (t : Fin 48) (slot : TypeSlot) :
    (s.setType t slot).zones = s.zones := rfl

@[simp] theorem State.setType_queue (s : State) (t : Fin 48) (slot : TypeSlot) :
    (s.setType t slot).queue = s.queue := rfl

@[simp] theorem State.setType_monitors (s : State) (t : Fin 48) (slot : TypeSlot) :
    (s.setType t slot).monitors = s.monitors := rfl

@[simp] theorem State.setType_records (s : State) (t : Fin 48) (slot : TypeSlot) :
    (s.setType t slot).records = s.records := rfl

@[simp] theorem State.setType_headLinks (s : State) (t : Fin 48) (slot : TypeSlot) :
    (s.setType t slot).headLinks = s.headLinks := rfl

@[simp] theorem State.setType_cellLink (s : State) (t : Fin 48) (slot : TypeSlot) :
    (s.setType t slot).cellLink = s.cellLink := rfl


/-! `State.setSite` -/

@[simp] theorem State.setSite_pending (s : State) (n : Fin 96) (e : Option SiteEntry) :
    (s.setSite n e).pending = s.pending := rfl

@[simp] theorem State.setSite_clock (s : State) (n : Fin 96) (e : Option SiteEntry) :
    (s.setSite n e).clock = s.clock := rfl

@[simp] theorem State.setSite_resetHeld (s : State) (n : Fin 96) (e : Option SiteEntry) :
    (s.setSite n e).resetHeld = s.resetHeld := rfl

@[simp] theorem State.setSite_estop (s : State) (n : Fin 96) (e : Option SiteEntry) :
    (s.setSite n e).estop = s.estop := rfl

@[simp] theorem State.setSite_period (s : State) (n : Fin 96) (e : Option SiteEntry) :
    (s.setSite n e).period = s.period := rfl

@[simp] theorem State.setSite_fronts (s : State) (n : Fin 96) (e : Option SiteEntry) :
    (s.setSite n e).fronts = s.fronts := rfl

@[simp] theorem State.setSite_library (s : State) (n : Fin 96) (e : Option SiteEntry) :
    (s.setSite n e).library = s.library := rfl

@[simp] theorem State.setSite_board (s : State) (n : Fin 96) (e : Option SiteEntry) :
    (s.setSite n e).board = s.board := rfl

@[simp] theorem State.setSite_zones (s : State) (n : Fin 96) (e : Option SiteEntry) :
    (s.setSite n e).zones = s.zones := rfl

@[simp] theorem State.setSite_queue (s : State) (n : Fin 96) (e : Option SiteEntry) :
    (s.setSite n e).queue = s.queue := rfl

@[simp] theorem State.setSite_monitors (s : State) (n : Fin 96) (e : Option SiteEntry) :
    (s.setSite n e).monitors = s.monitors := rfl

@[simp] theorem State.setSite_records (s : State) (n : Fin 96) (e : Option SiteEntry) :
    (s.setSite n e).records = s.records := rfl

@[simp] theorem State.setSite_headLinks (s : State) (n : Fin 96) (e : Option SiteEntry) :
    (s.setSite n e).headLinks = s.headLinks := rfl

@[simp] theorem State.setSite_cellLink (s : State) (n : Fin 96) (e : Option SiteEntry) :
    (s.setSite n e).cellLink = s.cellLink := rfl


/-! `State.leaveQueue` -/

@[simp] theorem State.leaveQueue_pending (s : State) (h : Head) :
    (s.leaveQueue h).pending = s.pending := rfl

@[simp] theorem State.leaveQueue_clock (s : State) (h : Head) :
    (s.leaveQueue h).clock = s.clock := rfl

@[simp] theorem State.leaveQueue_resetHeld (s : State) (h : Head) :
    (s.leaveQueue h).resetHeld = s.resetHeld := rfl

@[simp] theorem State.leaveQueue_estop (s : State) (h : Head) :
    (s.leaveQueue h).estop = s.estop := rfl

@[simp] theorem State.leaveQueue_period (s : State) (h : Head) :
    (s.leaveQueue h).period = s.period := rfl

@[simp] theorem State.leaveQueue_fronts (s : State) (h : Head) :
    (s.leaveQueue h).fronts = s.fronts := rfl

@[simp] theorem State.leaveQueue_library (s : State) (h : Head) :
    (s.leaveQueue h).library = s.library := rfl

@[simp] theorem State.leaveQueue_board (s : State) (h : Head) :
    (s.leaveQueue h).board = s.board := rfl

@[simp] theorem State.leaveQueue_sites (s : State) (h : Head) :
    (s.leaveQueue h).sites = s.sites := rfl

@[simp] theorem State.leaveQueue_zones (s : State) (h : Head) :
    (s.leaveQueue h).zones = s.zones := rfl

@[simp] theorem State.leaveQueue_monitors (s : State) (h : Head) :
    (s.leaveQueue h).monitors = s.monitors := rfl

@[simp] theorem State.leaveQueue_records (s : State) (h : Head) :
    (s.leaveQueue h).records = s.records := rfl

@[simp] theorem State.leaveQueue_headLinks (s : State) (h : Head) :
    (s.leaveQueue h).headLinks = s.headLinks := rfl

@[simp] theorem State.leaveQueue_cellLink (s : State) (h : Head) :
    (s.leaveQueue h).cellLink = s.cellLink := rfl


/-! `State.freeZones` -/

@[simp] theorem State.freeZones_pending (s : State) (h : Head) :
    (s.freeZones h).pending = s.pending := by simp only [State.freeZones]

@[simp] theorem State.freeZones_clock (s : State) (h : Head) :
    (s.freeZones h).clock = s.clock := by simp only [State.freeZones]

@[simp] theorem State.freeZones_resetHeld (s : State) (h : Head) :
    (s.freeZones h).resetHeld = s.resetHeld := by simp only [State.freeZones]

@[simp] theorem State.freeZones_estop (s : State) (h : Head) :
    (s.freeZones h).estop = s.estop := by simp only [State.freeZones]

@[simp] theorem State.freeZones_period (s : State) (h : Head) :
    (s.freeZones h).period = s.period := by simp only [State.freeZones]

@[simp] theorem State.freeZones_fronts (s : State) (h : Head) :
    (s.freeZones h).fronts = s.fronts := by simp only [State.freeZones]

@[simp] theorem State.freeZones_library (s : State) (h : Head) :
    (s.freeZones h).library = s.library := by simp only [State.freeZones]

@[simp] theorem State.freeZones_board (s : State) (h : Head) :
    (s.freeZones h).board = s.board := by simp only [State.freeZones]

@[simp] theorem State.freeZones_sites (s : State) (h : Head) :
    (s.freeZones h).sites = s.sites := by simp only [State.freeZones]

@[simp] theorem State.freeZones_queue (s : State) (h : Head) :
    (s.freeZones h).queue = s.queue := by simp only [State.freeZones]

@[simp] theorem State.freeZones_monitors (s : State) (h : Head) :
    (s.freeZones h).monitors = s.monitors := by simp only [State.freeZones]

@[simp] theorem State.freeZones_records (s : State) (h : Head) :
    (s.freeZones h).records = s.records := by simp only [State.freeZones]

@[simp] theorem State.freeZones_headLinks (s : State) (h : Head) :
    (s.freeZones h).headLinks = s.headLinks := by simp only [State.freeZones]

@[simp] theorem State.freeZones_cellLink (s : State) (h : Head) :
    (s.freeZones h).cellLink = s.cellLink := by simp only [State.freeZones]


/-! `State.takeZones` -/

@[simp] theorem State.takeZones_pending (s : State) (h : Head) (zs : List (Fin 32)) :
    (s.takeZones h zs).pending = s.pending := by simp only [State.takeZones]

@[simp] theorem State.takeZones_clock (s : State) (h : Head) (zs : List (Fin 32)) :
    (s.takeZones h zs).clock = s.clock := by simp only [State.takeZones]

@[simp] theorem State.takeZones_resetHeld (s : State) (h : Head) (zs : List (Fin 32)) :
    (s.takeZones h zs).resetHeld = s.resetHeld := by simp only [State.takeZones]

@[simp] theorem State.takeZones_estop (s : State) (h : Head) (zs : List (Fin 32)) :
    (s.takeZones h zs).estop = s.estop := by simp only [State.takeZones]

@[simp] theorem State.takeZones_period (s : State) (h : Head) (zs : List (Fin 32)) :
    (s.takeZones h zs).period = s.period := by simp only [State.takeZones]

@[simp] theorem State.takeZones_fronts (s : State) (h : Head) (zs : List (Fin 32)) :
    (s.takeZones h zs).fronts = s.fronts := by simp only [State.takeZones]

@[simp] theorem State.takeZones_library (s : State) (h : Head) (zs : List (Fin 32)) :
    (s.takeZones h zs).library = s.library := by simp only [State.takeZones]

@[simp] theorem State.takeZones_board (s : State) (h : Head) (zs : List (Fin 32)) :
    (s.takeZones h zs).board = s.board := by simp only [State.takeZones]

@[simp] theorem State.takeZones_sites (s : State) (h : Head) (zs : List (Fin 32)) :
    (s.takeZones h zs).sites = s.sites := by simp only [State.takeZones]

@[simp] theorem State.takeZones_queue (s : State) (h : Head) (zs : List (Fin 32)) :
    (s.takeZones h zs).queue = s.queue := by simp only [State.takeZones]

@[simp] theorem State.takeZones_monitors (s : State) (h : Head) (zs : List (Fin 32)) :
    (s.takeZones h zs).monitors = s.monitors := by simp only [State.takeZones]

@[simp] theorem State.takeZones_records (s : State) (h : Head) (zs : List (Fin 32)) :
    (s.takeZones h zs).records = s.records := by simp only [State.takeZones]

@[simp] theorem State.takeZones_headLinks (s : State) (h : Head) (zs : List (Fin 32)) :
    (s.takeZones h zs).headLinks = s.headLinks := by simp only [State.takeZones]

@[simp] theorem State.takeZones_cellLink (s : State) (h : Head) (zs : List (Fin 32)) :
    (s.takeZones h zs).cellLink = s.cellLink := by simp only [State.takeZones]


/-! `State.toIdle` -/

@[simp] theorem State.toIdle_pending (s : State) (h : Head) :
    (s.toIdle h).pending = s.pending := rfl

@[simp] theorem State.toIdle_clock (s : State) (h : Head) :
    (s.toIdle h).clock = s.clock := rfl

@[simp] theorem State.toIdle_resetHeld (s : State) (h : Head) :
    (s.toIdle h).resetHeld = s.resetHeld := rfl

@[simp] theorem State.toIdle_estop (s : State) (h : Head) :
    (s.toIdle h).estop = s.estop := rfl

@[simp] theorem State.toIdle_period (s : State) (h : Head) :
    (s.toIdle h).period = s.period := rfl

@[simp] theorem State.toIdle_fronts (s : State) (h : Head) :
    (s.toIdle h).fronts = s.fronts := rfl

@[simp] theorem State.toIdle_library (s : State) (h : Head) :
    (s.toIdle h).library = s.library := rfl

@[simp] theorem State.toIdle_board (s : State) (h : Head) :
    (s.toIdle h).board = s.board := rfl

@[simp] theorem State.toIdle_sites (s : State) (h : Head) :
    (s.toIdle h).sites = s.sites := rfl

@[simp] theorem State.toIdle_zones (s : State) (h : Head) :
    (s.toIdle h).zones = s.zones := rfl

@[simp] theorem State.toIdle_queue (s : State) (h : Head) :
    (s.toIdle h).queue = s.queue := rfl

@[simp] theorem State.toIdle_records (s : State) (h : Head) :
    (s.toIdle h).records = s.records := rfl

@[simp] theorem State.toIdle_headLinks (s : State) (h : Head) :
    (s.toIdle h).headLinks = s.headLinks := rfl

@[simp] theorem State.toIdle_cellLink (s : State) (h : Head) :
    (s.toIdle h).cellLink = s.cellLink := rfl


/-! `State.changeSite` -/

@[simp] theorem State.changeSite_pending (s : State) (n : Fin 96) (g : SiteEntry → SiteEntry) :
    (s.changeSite n g).pending = s.pending := rfl

@[simp] theorem State.changeSite_clock (s : State) (n : Fin 96) (g : SiteEntry → SiteEntry) :
    (s.changeSite n g).clock = s.clock := rfl

@[simp] theorem State.changeSite_resetHeld (s : State) (n : Fin 96) (g : SiteEntry → SiteEntry) :
    (s.changeSite n g).resetHeld = s.resetHeld := rfl

@[simp] theorem State.changeSite_estop (s : State) (n : Fin 96) (g : SiteEntry → SiteEntry) :
    (s.changeSite n g).estop = s.estop := rfl

@[simp] theorem State.changeSite_period (s : State) (n : Fin 96) (g : SiteEntry → SiteEntry) :
    (s.changeSite n g).period = s.period := rfl

@[simp] theorem State.changeSite_fronts (s : State) (n : Fin 96) (g : SiteEntry → SiteEntry) :
    (s.changeSite n g).fronts = s.fronts := rfl

@[simp] theorem State.changeSite_library (s : State) (n : Fin 96) (g : SiteEntry → SiteEntry) :
    (s.changeSite n g).library = s.library := rfl

@[simp] theorem State.changeSite_board (s : State) (n : Fin 96) (g : SiteEntry → SiteEntry) :
    (s.changeSite n g).board = s.board := rfl

@[simp] theorem State.changeSite_zones (s : State) (n : Fin 96) (g : SiteEntry → SiteEntry) :
    (s.changeSite n g).zones = s.zones := rfl

@[simp] theorem State.changeSite_queue (s : State) (n : Fin 96) (g : SiteEntry → SiteEntry) :
    (s.changeSite n g).queue = s.queue := rfl

@[simp] theorem State.changeSite_monitors (s : State) (n : Fin 96) (g : SiteEntry → SiteEntry) :
    (s.changeSite n g).monitors = s.monitors := rfl

@[simp] theorem State.changeSite_records (s : State) (n : Fin 96) (g : SiteEntry → SiteEntry) :
    (s.changeSite n g).records = s.records := rfl

@[simp] theorem State.changeSite_headLinks (s : State) (n : Fin 96) (g : SiteEntry → SiteEntry) :
    (s.changeSite n g).headLinks = s.headLinks := rfl

@[simp] theorem State.changeSite_cellLink (s : State) (n : Fin 96) (g : SiteEntry → SiteEntry) :
    (s.changeSite n g).cellLink = s.cellLink := rfl


/-! `State.appendRecord` -/

@[simp] theorem State.appendRecord_pending (s : State) (r : PressRecord) :
    (s.appendRecord r).pending = s.pending := rfl

@[simp] theorem State.appendRecord_clock (s : State) (r : PressRecord) :
    (s.appendRecord r).clock = s.clock := rfl

@[simp] theorem State.appendRecord_resetHeld (s : State) (r : PressRecord) :
    (s.appendRecord r).resetHeld = s.resetHeld := rfl

@[simp] theorem State.appendRecord_estop (s : State) (r : PressRecord) :
    (s.appendRecord r).estop = s.estop := rfl

@[simp] theorem State.appendRecord_period (s : State) (r : PressRecord) :
    (s.appendRecord r).period = s.period := rfl

@[simp] theorem State.appendRecord_fronts (s : State) (r : PressRecord) :
    (s.appendRecord r).fronts = s.fronts := rfl

@[simp] theorem State.appendRecord_library (s : State) (r : PressRecord) :
    (s.appendRecord r).library = s.library := rfl

@[simp] theorem State.appendRecord_board (s : State) (r : PressRecord) :
    (s.appendRecord r).board = s.board := rfl

@[simp] theorem State.appendRecord_sites (s : State) (r : PressRecord) :
    (s.appendRecord r).sites = s.sites := rfl

@[simp] theorem State.appendRecord_zones (s : State) (r : PressRecord) :
    (s.appendRecord r).zones = s.zones := rfl

@[simp] theorem State.appendRecord_queue (s : State) (r : PressRecord) :
    (s.appendRecord r).queue = s.queue := rfl

@[simp] theorem State.appendRecord_monitors (s : State) (r : PressRecord) :
    (s.appendRecord r).monitors = s.monitors := rfl

@[simp] theorem State.appendRecord_headLinks (s : State) (r : PressRecord) :
    (s.appendRecord r).headLinks = s.headLinks := rfl

@[simp] theorem State.appendRecord_cellLink (s : State) (r : PressRecord) :
    (s.appendRecord r).cellLink = s.cellLink := rfl


/-! `State.raiseBypass` -/

@[simp] theorem State.raiseBypass_pending (s : State) (older : List QueueEntry) (n : Fin 96) :
    (s.raiseBypass older n).pending = s.pending := rfl

@[simp] theorem State.raiseBypass_clock (s : State) (older : List QueueEntry) (n : Fin 96) :
    (s.raiseBypass older n).clock = s.clock := rfl

@[simp] theorem State.raiseBypass_resetHeld (s : State) (older : List QueueEntry) (n : Fin 96) :
    (s.raiseBypass older n).resetHeld = s.resetHeld := rfl

@[simp] theorem State.raiseBypass_estop (s : State) (older : List QueueEntry) (n : Fin 96) :
    (s.raiseBypass older n).estop = s.estop := rfl

@[simp] theorem State.raiseBypass_period (s : State) (older : List QueueEntry) (n : Fin 96) :
    (s.raiseBypass older n).period = s.period := rfl

@[simp] theorem State.raiseBypass_fronts (s : State) (older : List QueueEntry) (n : Fin 96) :
    (s.raiseBypass older n).fronts = s.fronts := rfl

@[simp] theorem State.raiseBypass_library (s : State) (older : List QueueEntry) (n : Fin 96) :
    (s.raiseBypass older n).library = s.library := rfl

@[simp] theorem State.raiseBypass_board (s : State) (older : List QueueEntry) (n : Fin 96) :
    (s.raiseBypass older n).board = s.board := rfl

@[simp] theorem State.raiseBypass_sites (s : State) (older : List QueueEntry) (n : Fin 96) :
    (s.raiseBypass older n).sites = s.sites := rfl

@[simp] theorem State.raiseBypass_zones (s : State) (older : List QueueEntry) (n : Fin 96) :
    (s.raiseBypass older n).zones = s.zones := rfl

@[simp] theorem State.raiseBypass_monitors (s : State) (older : List QueueEntry) (n : Fin 96) :
    (s.raiseBypass older n).monitors = s.monitors := rfl

@[simp] theorem State.raiseBypass_records (s : State) (older : List QueueEntry) (n : Fin 96) :
    (s.raiseBypass older n).records = s.records := rfl

@[simp] theorem State.raiseBypass_headLinks (s : State) (older : List QueueEntry) (n : Fin 96) :
    (s.raiseBypass older n).headLinks = s.headLinks := rfl

@[simp] theorem State.raiseBypass_cellLink (s : State) (older : List QueueEntry) (n : Fin 96) :
    (s.raiseBypass older n).cellLink = s.cellLink := rfl


/-! `State.notBefore` -/

@[simp] theorem State.notBefore_pending (s : State) (u : Nat) :
    (s.notBefore u).pending = s.pending := rfl

@[simp] theorem State.notBefore_resetHeld (s : State) (u : Nat) :
    (s.notBefore u).resetHeld = s.resetHeld := rfl

@[simp] theorem State.notBefore_estop (s : State) (u : Nat) :
    (s.notBefore u).estop = s.estop := rfl

@[simp] theorem State.notBefore_period (s : State) (u : Nat) :
    (s.notBefore u).period = s.period := rfl

@[simp] theorem State.notBefore_fronts (s : State) (u : Nat) :
    (s.notBefore u).fronts = s.fronts := rfl

@[simp] theorem State.notBefore_library (s : State) (u : Nat) :
    (s.notBefore u).library = s.library := rfl

@[simp] theorem State.notBefore_board (s : State) (u : Nat) :
    (s.notBefore u).board = s.board := rfl

@[simp] theorem State.notBefore_sites (s : State) (u : Nat) :
    (s.notBefore u).sites = s.sites := rfl

@[simp] theorem State.notBefore_zones (s : State) (u : Nat) :
    (s.notBefore u).zones = s.zones := rfl

@[simp] theorem State.notBefore_queue (s : State) (u : Nat) :
    (s.notBefore u).queue = s.queue := rfl

@[simp] theorem State.notBefore_monitors (s : State) (u : Nat) :
    (s.notBefore u).monitors = s.monitors := rfl

@[simp] theorem State.notBefore_records (s : State) (u : Nat) :
    (s.notBefore u).records = s.records := rfl

@[simp] theorem State.notBefore_headLinks (s : State) (u : Nat) :
    (s.notBefore u).headLinks = s.headLinks := rfl

@[simp] theorem State.notBefore_cellLink (s : State) (u : Nat) :
    (s.notBefore u).cellLink = s.cellLink := rfl


/-! `State.setLink` -/

@[simp] theorem State.setLink_pending (s : State) (l : Link) (k : LinkState) :
    (s.setLink l k).pending = s.pending := by cases l <;> rfl

@[simp] theorem State.setLink_clock (s : State) (l : Link) (k : LinkState) :
    (s.setLink l k).clock = s.clock := by cases l <;> rfl

@[simp] theorem State.setLink_resetHeld (s : State) (l : Link) (k : LinkState) :
    (s.setLink l k).resetHeld = s.resetHeld := by cases l <;> rfl

@[simp] theorem State.setLink_estop (s : State) (l : Link) (k : LinkState) :
    (s.setLink l k).estop = s.estop := by cases l <;> rfl

@[simp] theorem State.setLink_period (s : State) (l : Link) (k : LinkState) :
    (s.setLink l k).period = s.period := by cases l <;> rfl

@[simp] theorem State.setLink_fronts (s : State) (l : Link) (k : LinkState) :
    (s.setLink l k).fronts = s.fronts := by cases l <;> rfl

@[simp] theorem State.setLink_library (s : State) (l : Link) (k : LinkState) :
    (s.setLink l k).library = s.library := by cases l <;> rfl

@[simp] theorem State.setLink_board (s : State) (l : Link) (k : LinkState) :
    (s.setLink l k).board = s.board := by cases l <;> rfl

@[simp] theorem State.setLink_sites (s : State) (l : Link) (k : LinkState) :
    (s.setLink l k).sites = s.sites := by cases l <;> rfl

@[simp] theorem State.setLink_zones (s : State) (l : Link) (k : LinkState) :
    (s.setLink l k).zones = s.zones := by cases l <;> rfl

@[simp] theorem State.setLink_queue (s : State) (l : Link) (k : LinkState) :
    (s.setLink l k).queue = s.queue := by cases l <;> rfl

@[simp] theorem State.setLink_monitors (s : State) (l : Link) (k : LinkState) :
    (s.setLink l k).monitors = s.monitors := by cases l <;> rfl

@[simp] theorem State.setLink_records (s : State) (l : Link) (k : LinkState) :
    (s.setLink l k).records = s.records := by cases l <;> rfl


/-! `State.offer` -/

@[simp] theorem State.offer_pending (s : State) (l : Link) (f : OutFrame) :
    (s.offer l f).pending = s.pending := by cases l <;> rfl

@[simp] theorem State.offer_clock (s : State) (l : Link) (f : OutFrame) :
    (s.offer l f).clock = s.clock := by cases l <;> rfl

@[simp] theorem State.offer_resetHeld (s : State) (l : Link) (f : OutFrame) :
    (s.offer l f).resetHeld = s.resetHeld := by cases l <;> rfl

@[simp] theorem State.offer_estop (s : State) (l : Link) (f : OutFrame) :
    (s.offer l f).estop = s.estop := by cases l <;> rfl

@[simp] theorem State.offer_period (s : State) (l : Link) (f : OutFrame) :
    (s.offer l f).period = s.period := by cases l <;> rfl

@[simp] theorem State.offer_fronts (s : State) (l : Link) (f : OutFrame) :
    (s.offer l f).fronts = s.fronts := by cases l <;> rfl

@[simp] theorem State.offer_library (s : State) (l : Link) (f : OutFrame) :
    (s.offer l f).library = s.library := by cases l <;> rfl

@[simp] theorem State.offer_board (s : State) (l : Link) (f : OutFrame) :
    (s.offer l f).board = s.board := by cases l <;> rfl

@[simp] theorem State.offer_sites (s : State) (l : Link) (f : OutFrame) :
    (s.offer l f).sites = s.sites := by cases l <;> rfl

@[simp] theorem State.offer_zones (s : State) (l : Link) (f : OutFrame) :
    (s.offer l f).zones = s.zones := by cases l <;> rfl

@[simp] theorem State.offer_queue (s : State) (l : Link) (f : OutFrame) :
    (s.offer l f).queue = s.queue := by cases l <;> rfl

@[simp] theorem State.offer_monitors (s : State) (l : Link) (f : OutFrame) :
    (s.offer l f).monitors = s.monitors := by cases l <;> rfl

@[simp] theorem State.offer_records (s : State) (l : Link) (f : OutFrame) :
    (s.offer l f).records = s.records := by cases l <;> rfl


/-! `State.event` -/

@[simp] theorem State.event_pending (s : State) (h : Head) (kind : Byte) (bytes : List Byte) :
    (s.event h kind bytes).pending = s.pending := rfl

@[simp] theorem State.event_clock (s : State) (h : Head) (kind : Byte) (bytes : List Byte) :
    (s.event h kind bytes).clock = s.clock := rfl

@[simp] theorem State.event_resetHeld (s : State) (h : Head) (kind : Byte) (bytes : List Byte) :
    (s.event h kind bytes).resetHeld = s.resetHeld := rfl

@[simp] theorem State.event_estop (s : State) (h : Head) (kind : Byte) (bytes : List Byte) :
    (s.event h kind bytes).estop = s.estop := rfl

@[simp] theorem State.event_period (s : State) (h : Head) (kind : Byte) (bytes : List Byte) :
    (s.event h kind bytes).period = s.period := rfl

@[simp] theorem State.event_fronts (s : State) (h : Head) (kind : Byte) (bytes : List Byte) :
    (s.event h kind bytes).fronts = s.fronts := rfl

@[simp] theorem State.event_library (s : State) (h : Head) (kind : Byte) (bytes : List Byte) :
    (s.event h kind bytes).library = s.library := rfl

@[simp] theorem State.event_board (s : State) (h : Head) (kind : Byte) (bytes : List Byte) :
    (s.event h kind bytes).board = s.board := rfl

@[simp] theorem State.event_sites (s : State) (h : Head) (kind : Byte) (bytes : List Byte) :
    (s.event h kind bytes).sites = s.sites := rfl

@[simp] theorem State.event_zones (s : State) (h : Head) (kind : Byte) (bytes : List Byte) :
    (s.event h kind bytes).zones = s.zones := rfl

@[simp] theorem State.event_queue (s : State) (h : Head) (kind : Byte) (bytes : List Byte) :
    (s.event h kind bytes).queue = s.queue := rfl

@[simp] theorem State.event_monitors (s : State) (h : Head) (kind : Byte) (bytes : List Byte) :
    (s.event h kind bytes).monitors = s.monitors := rfl

@[simp] theorem State.event_records (s : State) (h : Head) (kind : Byte) (bytes : List Byte) :
    (s.event h kind bytes).records = s.records := rfl


/-! `State.withReply` -/

@[simp] theorem State.withReply_pending (s : State) (l : Link) (kind tag : Byte) (st :
    Status) (bytes : List Byte) :
    (s.withReply l kind tag st bytes).pending = s.pending := by cases l <;> rfl

@[simp] theorem State.withReply_clock (s : State) (l : Link) (kind tag : Byte) (st :
    Status) (bytes : List Byte) :
    (s.withReply l kind tag st bytes).clock = s.clock := by cases l <;> rfl

@[simp] theorem State.withReply_resetHeld (s : State) (l : Link) (kind tag : Byte) (st :
    Status) (bytes : List Byte) :
    (s.withReply l kind tag st bytes).resetHeld = s.resetHeld := by cases l <;> rfl

@[simp] theorem State.withReply_estop (s : State) (l : Link) (kind tag : Byte) (st :
    Status) (bytes : List Byte) :
    (s.withReply l kind tag st bytes).estop = s.estop := by cases l <;> rfl

@[simp] theorem State.withReply_period (s : State) (l : Link) (kind tag : Byte) (st :
    Status) (bytes : List Byte) :
    (s.withReply l kind tag st bytes).period = s.period := by cases l <;> rfl

@[simp] theorem State.withReply_fronts (s : State) (l : Link) (kind tag : Byte) (st :
    Status) (bytes : List Byte) :
    (s.withReply l kind tag st bytes).fronts = s.fronts := by cases l <;> rfl

@[simp] theorem State.withReply_library (s : State) (l : Link) (kind tag : Byte) (st :
    Status) (bytes : List Byte) :
    (s.withReply l kind tag st bytes).library = s.library := by cases l <;> rfl

@[simp] theorem State.withReply_board (s : State) (l : Link) (kind tag : Byte) (st :
    Status) (bytes : List Byte) :
    (s.withReply l kind tag st bytes).board = s.board := by cases l <;> rfl

@[simp] theorem State.withReply_sites (s : State) (l : Link) (kind tag : Byte) (st :
    Status) (bytes : List Byte) :
    (s.withReply l kind tag st bytes).sites = s.sites := by cases l <;> rfl

@[simp] theorem State.withReply_zones (s : State) (l : Link) (kind tag : Byte) (st :
    Status) (bytes : List Byte) :
    (s.withReply l kind tag st bytes).zones = s.zones := by cases l <;> rfl

@[simp] theorem State.withReply_queue (s : State) (l : Link) (kind tag : Byte) (st :
    Status) (bytes : List Byte) :
    (s.withReply l kind tag st bytes).queue = s.queue := by cases l <;> rfl

@[simp] theorem State.withReply_monitors (s : State) (l : Link) (kind tag : Byte) (st :
    Status) (bytes : List Byte) :
    (s.withReply l kind tag st bytes).monitors = s.monitors := by cases l <;> rfl

@[simp] theorem State.withReply_records (s : State) (l : Link) (kind tag : Byte) (st :
    Status) (bytes : List Byte) :
    (s.withReply l kind tag st bytes).records = s.records := by cases l <;> rfl


/-! ### The named reads after each update -/

@[simp] theorem State.setFront_monitor (s : State) (h : Head) (f : FrontEnd) (h' : Head) :
    (s.setFront h f).monitor h' = s.monitor h' := rfl

@[simp] theorem State.setFront_link (s : State) (h : Head) (f : FrontEnd) (j : Link) :
    (s.setFront h f).link j = s.link j := by cases j <;> rfl

@[simp] theorem State.setFront_typeSlot (s : State) (h : Head) (f : FrontEnd) (i : Fin 48) :
    (s.setFront h f).typeSlot i = s.typeSlot i := rfl

@[simp] theorem State.setFront_site (s : State) (h : Head) (f : FrontEnd) (m' : Fin 96) :
    (s.setFront h f).site m' = s.site m' := rfl

@[simp] theorem State.setFront_holder (s : State) (h : Head) (f : FrontEnd) (z : Fin 32) :
    (s.setFront h f).holder z = s.holder z := rfl

@[simp] theorem State.setMonitor_front (s : State) (h : Head) (m : Monitor) (h' : Head) :
    (s.setMonitor h m).front h' = s.front h' := rfl

@[simp] theorem State.setMonitor_link (s : State) (h : Head) (m : Monitor) (j : Link) :
    (s.setMonitor h m).link j = s.link j := by cases j <;> rfl

@[simp] theorem State.setMonitor_typeSlot (s : State) (h : Head) (m : Monitor) (i : Fin 48) :
    (s.setMonitor h m).typeSlot i = s.typeSlot i := rfl

@[simp] theorem State.setMonitor_site (s : State) (h : Head) (m : Monitor) (m' : Fin 96) :
    (s.setMonitor h m).site m' = s.site m' := rfl

@[simp] theorem State.setMonitor_holder (s : State) (h : Head) (m : Monitor) (z : Fin 32) :
    (s.setMonitor h m).holder z = s.holder z := rfl

@[simp] theorem State.setType_front (s : State) (t : Fin 48) (slot : TypeSlot) (h' : Head) :
    (s.setType t slot).front h' = s.front h' := rfl

@[simp] theorem State.setType_monitor (s : State) (t : Fin 48) (slot : TypeSlot) (h' : Head) :
    (s.setType t slot).monitor h' = s.monitor h' := rfl

@[simp] theorem State.setType_link (s : State) (t : Fin 48) (slot : TypeSlot) (j : Link) :
    (s.setType t slot).link j = s.link j := by cases j <;> rfl

@[simp] theorem State.setType_site (s : State) (t : Fin 48) (slot : TypeSlot) (m' : Fin 96) :
    (s.setType t slot).site m' = s.site m' := rfl

@[simp] theorem State.setType_holder (s : State) (t : Fin 48) (slot : TypeSlot) (z : Fin 32) :
    (s.setType t slot).holder z = s.holder z := rfl

@[simp] theorem State.setSite_front (s : State) (n : Fin 96) (e : Option SiteEntry) (h' : Head) :
    (s.setSite n e).front h' = s.front h' := rfl

@[simp] theorem State.setSite_monitor (s : State) (n : Fin 96) (e : Option SiteEntry) (h' : Head) :
    (s.setSite n e).monitor h' = s.monitor h' := rfl

@[simp] theorem State.setSite_link (s : State) (n : Fin 96) (e : Option SiteEntry) (j : Link) :
    (s.setSite n e).link j = s.link j := by cases j <;> rfl

@[simp] theorem State.setSite_typeSlot (s : State) (n : Fin 96) (e : Option SiteEntry) (i :
    Fin 48) :
    (s.setSite n e).typeSlot i = s.typeSlot i := rfl

@[simp] theorem State.setSite_holder (s : State) (n : Fin 96) (e : Option SiteEntry) (z : Fin 32) :
    (s.setSite n e).holder z = s.holder z := rfl

@[simp] theorem State.leaveQueue_front (s : State) (h : Head) (h' : Head) :
    (s.leaveQueue h).front h' = s.front h' := rfl

@[simp] theorem State.leaveQueue_monitor (s : State) (h : Head) (h' : Head) :
    (s.leaveQueue h).monitor h' = s.monitor h' := rfl

@[simp] theorem State.leaveQueue_link (s : State) (h : Head) (j : Link) :
    (s.leaveQueue h).link j = s.link j := by cases j <;> rfl

@[simp] theorem State.leaveQueue_typeSlot (s : State) (h : Head) (i : Fin 48) :
    (s.leaveQueue h).typeSlot i = s.typeSlot i := rfl

@[simp] theorem State.leaveQueue_site (s : State) (h : Head) (m' : Fin 96) :
    (s.leaveQueue h).site m' = s.site m' := rfl

@[simp] theorem State.leaveQueue_holder (s : State) (h : Head) (z : Fin 32) :
    (s.leaveQueue h).holder z = s.holder z := rfl

@[simp] theorem State.freeZones_front (s : State) (h : Head) (h' : Head) :
    (s.freeZones h).front h' = s.front h' := by simp only [State.front, State.freeZones]

@[simp] theorem State.freeZones_monitor (s : State) (h : Head) (h' : Head) :
    (s.freeZones h).monitor h' = s.monitor h' := by simp only [State.monitor, State.freeZones]

@[simp] theorem State.freeZones_link (s : State) (h : Head) (j : Link) :
    (s.freeZones h).link j = s.link j := by cases j <;> simp only [State.link, State.freeZones]

@[simp] theorem State.freeZones_typeSlot (s : State) (h : Head) (i : Fin 48) :
    (s.freeZones h).typeSlot i = s.typeSlot i := by simp only [State.typeSlot, State.freeZones]

@[simp] theorem State.freeZones_site (s : State) (h : Head) (m' : Fin 96) :
    (s.freeZones h).site m' = s.site m' := by simp only [State.site, State.freeZones]

@[simp] theorem State.takeZones_front (s : State) (h : Head) (zs : List (Fin 32)) (h' : Head) :
    (s.takeZones h zs).front h' = s.front h' := by simp only [State.front, State.takeZones]

@[simp] theorem State.takeZones_monitor (s : State) (h : Head) (zs : List (Fin 32)) (h' : Head) :
    (s.takeZones h zs).monitor h' = s.monitor h' := by simp only [State.monitor, State.takeZones]

@[simp] theorem State.takeZones_link (s : State) (h : Head) (zs : List (Fin 32)) (j : Link) :
    (s.takeZones h zs).link j = s.link j := by cases j <;> simp only [State.link, State.takeZones]

@[simp] theorem State.takeZones_typeSlot (s : State) (h : Head) (zs : List (Fin 32)) (i : Fin 48) :
    (s.takeZones h zs).typeSlot i = s.typeSlot i := by simp only [State.typeSlot, State.takeZones]

@[simp] theorem State.takeZones_site (s : State) (h : Head) (zs : List (Fin 32)) (m' : Fin 96) :
    (s.takeZones h zs).site m' = s.site m' := by simp only [State.site, State.takeZones]

@[simp] theorem State.toIdle_front (s : State) (h : Head) (h' : Head) :
    (s.toIdle h).front h' = s.front h' := rfl

@[simp] theorem State.toIdle_link (s : State) (h : Head) (j : Link) :
    (s.toIdle h).link j = s.link j := by cases j <;> rfl

@[simp] theorem State.toIdle_typeSlot (s : State) (h : Head) (i : Fin 48) :
    (s.toIdle h).typeSlot i = s.typeSlot i := rfl

@[simp] theorem State.toIdle_site (s : State) (h : Head) (m' : Fin 96) :
    (s.toIdle h).site m' = s.site m' := rfl

@[simp] theorem State.toIdle_holder (s : State) (h : Head) (z : Fin 32) :
    (s.toIdle h).holder z = s.holder z := rfl

@[simp] theorem State.changeSite_front (s : State) (n : Fin 96) (g : SiteEntry → SiteEntry) (h' :
    Head) :
    (s.changeSite n g).front h' = s.front h' := rfl

@[simp] theorem State.changeSite_monitor (s : State) (n : Fin 96) (g : SiteEntry → SiteEntry) (h' :
    Head) :
    (s.changeSite n g).monitor h' = s.monitor h' := rfl

@[simp] theorem State.changeSite_link (s : State) (n : Fin 96) (g : SiteEntry → SiteEntry) (j :
    Link) :
    (s.changeSite n g).link j = s.link j := by cases j <;> rfl

@[simp] theorem State.changeSite_typeSlot (s : State) (n : Fin 96) (g : SiteEntry → SiteEntry) (i :
    Fin 48) :
    (s.changeSite n g).typeSlot i = s.typeSlot i := rfl

@[simp] theorem State.changeSite_holder (s : State) (n : Fin 96) (g : SiteEntry → SiteEntry) (z :
    Fin 32) :
    (s.changeSite n g).holder z = s.holder z := rfl

@[simp] theorem State.appendRecord_front (s : State) (r : PressRecord) (h' : Head) :
    (s.appendRecord r).front h' = s.front h' := rfl

@[simp] theorem State.appendRecord_monitor (s : State) (r : PressRecord) (h' : Head) :
    (s.appendRecord r).monitor h' = s.monitor h' := rfl

@[simp] theorem State.appendRecord_link (s : State) (r : PressRecord) (j : Link) :
    (s.appendRecord r).link j = s.link j := by cases j <;> rfl

@[simp] theorem State.appendRecord_typeSlot (s : State) (r : PressRecord) (i : Fin 48) :
    (s.appendRecord r).typeSlot i = s.typeSlot i := rfl

@[simp] theorem State.appendRecord_site (s : State) (r : PressRecord) (m' : Fin 96) :
    (s.appendRecord r).site m' = s.site m' := rfl

@[simp] theorem State.appendRecord_holder (s : State) (r : PressRecord) (z : Fin 32) :
    (s.appendRecord r).holder z = s.holder z := rfl

@[simp] theorem State.raiseBypass_front (s : State) (older : List QueueEntry) (n : Fin 96) (h' :
    Head) :
    (s.raiseBypass older n).front h' = s.front h' := rfl

@[simp] theorem State.raiseBypass_monitor (s : State) (older : List QueueEntry) (n : Fin 96) (h' :
    Head) :
    (s.raiseBypass older n).monitor h' = s.monitor h' := rfl

@[simp] theorem State.raiseBypass_link (s : State) (older : List QueueEntry) (n : Fin 96) (j :
    Link) :
    (s.raiseBypass older n).link j = s.link j := by cases j <;> rfl

@[simp] theorem State.raiseBypass_typeSlot (s : State) (older : List QueueEntry) (n : Fin 96) (i :
    Fin 48) :
    (s.raiseBypass older n).typeSlot i = s.typeSlot i := rfl

@[simp] theorem State.raiseBypass_site (s : State) (older : List QueueEntry) (n : Fin 96) (m' :
    Fin 96) :
    (s.raiseBypass older n).site m' = s.site m' := rfl

@[simp] theorem State.raiseBypass_holder (s : State) (older : List QueueEntry) (n : Fin 96) (z :
    Fin 32) :
    (s.raiseBypass older n).holder z = s.holder z := rfl

@[simp] theorem State.notBefore_front (s : State) (u : Nat) (h' : Head) :
    (s.notBefore u).front h' = s.front h' := rfl

@[simp] theorem State.notBefore_monitor (s : State) (u : Nat) (h' : Head) :
    (s.notBefore u).monitor h' = s.monitor h' := rfl

@[simp] theorem State.notBefore_link (s : State) (u : Nat) (j : Link) :
    (s.notBefore u).link j = s.link j := by cases j <;> rfl

@[simp] theorem State.notBefore_typeSlot (s : State) (u : Nat) (i : Fin 48) :
    (s.notBefore u).typeSlot i = s.typeSlot i := rfl

@[simp] theorem State.notBefore_site (s : State) (u : Nat) (m' : Fin 96) :
    (s.notBefore u).site m' = s.site m' := rfl

@[simp] theorem State.notBefore_holder (s : State) (u : Nat) (z : Fin 32) :
    (s.notBefore u).holder z = s.holder z := rfl

@[simp] theorem State.setLink_front (s : State) (l : Link) (k : LinkState) (h' : Head) :
    (s.setLink l k).front h' = s.front h' := by cases l <;> rfl

@[simp] theorem State.setLink_monitor (s : State) (l : Link) (k : LinkState) (h' : Head) :
    (s.setLink l k).monitor h' = s.monitor h' := by cases l <;> rfl

@[simp] theorem State.setLink_typeSlot (s : State) (l : Link) (k : LinkState) (i : Fin 48) :
    (s.setLink l k).typeSlot i = s.typeSlot i := by cases l <;> rfl

@[simp] theorem State.setLink_site (s : State) (l : Link) (k : LinkState) (m' : Fin 96) :
    (s.setLink l k).site m' = s.site m' := by cases l <;> rfl

@[simp] theorem State.setLink_holder (s : State) (l : Link) (k : LinkState) (z : Fin 32) :
    (s.setLink l k).holder z = s.holder z := by cases l <;> rfl

@[simp] theorem State.offer_front (s : State) (l : Link) (f : OutFrame) (h' : Head) :
    (s.offer l f).front h' = s.front h' := by cases l <;> rfl

@[simp] theorem State.offer_monitor (s : State) (l : Link) (f : OutFrame) (h' : Head) :
    (s.offer l f).monitor h' = s.monitor h' := by cases l <;> rfl

@[simp] theorem State.offer_typeSlot (s : State) (l : Link) (f : OutFrame) (i : Fin 48) :
    (s.offer l f).typeSlot i = s.typeSlot i := by cases l <;> rfl

@[simp] theorem State.offer_site (s : State) (l : Link) (f : OutFrame) (m' : Fin 96) :
    (s.offer l f).site m' = s.site m' := by cases l <;> rfl

@[simp] theorem State.offer_holder (s : State) (l : Link) (f : OutFrame) (z : Fin 32) :
    (s.offer l f).holder z = s.holder z := by cases l <;> rfl

@[simp] theorem State.event_front (s : State) (h : Head) (kind : Byte) (bytes : List Byte) (h' :
    Head) :
    (s.event h kind bytes).front h' = s.front h' := rfl

@[simp] theorem State.event_monitor (s : State) (h : Head) (kind : Byte) (bytes : List Byte) (h' :
    Head) :
    (s.event h kind bytes).monitor h' = s.monitor h' := rfl

@[simp] theorem State.event_typeSlot (s : State) (h : Head) (kind : Byte) (bytes : List Byte) (i :
    Fin 48) :
    (s.event h kind bytes).typeSlot i = s.typeSlot i := rfl

@[simp] theorem State.event_site (s : State) (h : Head) (kind : Byte) (bytes : List Byte) (m' :
    Fin 96) :
    (s.event h kind bytes).site m' = s.site m' := rfl

@[simp] theorem State.event_holder (s : State) (h : Head) (kind : Byte) (bytes : List Byte) (z :
    Fin 32) :
    (s.event h kind bytes).holder z = s.holder z := rfl

@[simp] theorem State.withReply_front (s : State) (l : Link) (kind tag : Byte) (st :
    Status) (bytes : List Byte) (h' : Head) :
    (s.withReply l kind tag st bytes).front h' = s.front h' := by cases l <;> rfl

@[simp] theorem State.withReply_monitor (s : State) (l : Link) (kind tag : Byte) (st :
    Status) (bytes : List Byte) (h' : Head) :
    (s.withReply l kind tag st bytes).monitor h' = s.monitor h' := by cases l <;> rfl

@[simp] theorem State.withReply_typeSlot (s : State) (l : Link) (kind tag : Byte) (st :
    Status) (bytes : List Byte) (i : Fin 48) :
    (s.withReply l kind tag st bytes).typeSlot i = s.typeSlot i := by cases l <;> rfl

@[simp] theorem State.withReply_site (s : State) (l : Link) (kind tag : Byte) (st :
    Status) (bytes : List Byte) (m' : Fin 96) :
    (s.withReply l kind tag st bytes).site m' = s.site m' := by cases l <;> rfl

@[simp] theorem State.withReply_holder (s : State) (l : Link) (kind tag : Byte) (st :
    Status) (bytes : List Byte) (z : Fin 32) :
    (s.withReply l kind tag st bytes).holder z = s.holder z := by cases l <;> rfl


/-! ### What each update writes -/

@[simp] theorem State.setFront_front (s : State) (h k : Head) (f : FrontEnd) :
    (s.setFront h f).front k = if k = h then f else s.front k := PerHead.get_set ..

@[simp] theorem State.setMonitor_monitor (s : State) (h k : Head) (m : Monitor) :
    (s.setMonitor h m).monitor k = if k = h then m else s.monitor k := PerHead.get_set ..

@[simp] theorem State.toIdle_monitor (s : State) (h k : Head) :
    (s.toIdle h).monitor k = if k = h then Monitor.idle else s.monitor k := PerHead.get_set ..

@[simp] theorem State.setLink_link (s : State) (l j : Link) (k : LinkState) :
    (s.setLink l k).link j = if j = l then k else s.link j := by
  cases l with
  | cell => cases j <;> simp [State.setLink, State.link]
  | head h =>
    cases j with
    | cell => simp [State.setLink, State.link]
    | head h' => simp [State.setLink, State.link, PerHead.get_set]

@[simp] theorem State.setType_typeSlot (s : State) (t i : Fin 48) (slot : TypeSlot) :
    (s.setType t slot).typeSlot i = if i = t then slot else s.typeSlot i := by
  by_cases h : i = t
  · subst h; simp [State.setType, State.typeSlot]
  · have h' : t.val ≠ i.val := fun e => h (Fin.ext e.symm)
    simp [State.setType, State.typeSlot, h, h']

@[simp] theorem State.setSite_site (s : State) (n m : Fin 96) (e : Option SiteEntry) :
    (s.setSite n e).site m = if m = n then e else s.site m := by
  by_cases h : m = n
  · subst h; simp [State.setSite, State.site]
  · have h' : n.val ≠ m.val := fun e => h (Fin.ext e.symm)
    simp [State.setSite, State.site, h, h']

@[simp] theorem State.changeSite_site (s : State) (n m : Fin 96) (g : SiteEntry → SiteEntry) :
    (s.changeSite n g).site m = if m = n then (s.site n).map g else s.site m := by
  simp [State.changeSite]

@[simp] theorem State.freeZones_holder (s : State) (h : Head) (z : Fin 32) :
    (s.freeZones h).holder z = if s.holder z = some h then none else s.holder z := by
  simp [State.freeZones, State.holder]

@[simp] theorem State.takeZones_holder (s : State) (h : Head) (zs : List (Fin 32)) (z : Fin 32) :
    (s.takeZones h zs).holder z = if zs.contains z then some h else s.holder z := by
  simp [State.takeZones, State.holder]

@[simp] theorem State.offer_link (s : State) (l j : Link) (f : OutFrame) :
    (s.offer l f).link j = if j = l then (s.link l).offer f else s.link j := by
  simp [State.offer]

@[simp] theorem State.event_link (s : State) (h : Head) (kind : Byte) (bytes : List Byte) (j :
    Link) :
    (s.event h kind bytes).link j =
      if j = .head h then (s.link (.head h)).offer (eventFrame kind bytes) else s.link j := by
  simp [State.event]

@[simp] theorem State.leaveQueue_queue (s : State) (h : Head) :
    (s.leaveQueue h).queue = s.queue.filter fun e => !(e.head == h) := rfl

@[simp] theorem State.appendRecord_records (s : State) (r : PressRecord) :
    (s.appendRecord r).records = s.records ++ [r] := rfl

@[simp] theorem State.notBefore_clock (s : State) (u : Nat) :
    (s.notBefore u).clock = max s.clock u := rfl

/-! ### Parts put back as they are -/

@[simp] theorem State.setFront_self (s : State) (h : Head) : s.setFront h (s.front h) = s := by
  simp [State.setFront, State.front]

@[simp] theorem State.setMonitor_self (s : State) (h : Head) :
    s.setMonitor h (s.monitor h) = s := by
  simp [State.setMonitor, State.monitor]

@[simp] theorem State.setLink_self (s : State) (l : Link) : s.setLink l (s.link l) = s := by
  cases l <;> simp [State.setLink, State.link]

@[simp] theorem State.setMonitor_setMonitor (s : State) (h : Head) (m m' : Monitor) :
    (s.setMonitor h m).setMonitor h m' = s.setMonitor h m' := by simp [State.setMonitor]

@[simp] theorem State.setFront_setFront (s : State) (h : Head) (f f' : FrontEnd) :
    (s.setFront h f).setFront h f' = s.setFront h f' := by simp [State.setFront]

@[simp] theorem State.setLink_setLink (s : State) (l : Link) (k k' : LinkState) :
    (s.setLink l k).setLink l k' = s.setLink l k' := by cases l <;> simp [State.setLink]

/-- Two states with the same fields, read by the named reads, are the same. -/
theorem State.ext_reads {s t : State} (pending : s.pending = t.pending) (clock : s.clock = t.clock)
    (resetHeld : s.resetHeld = t.resetHeld) (estop : s.estop = t.estop)
    (period : s.period = t.period) (fronts : ∀ h, s.front h = t.front h)
    (library : ∀ i, s.typeSlot i = t.typeSlot i) (board : s.board = t.board)
    (sites : ∀ n, s.site n = t.site n) (zones : ∀ z, s.holder z = t.holder z)
    (queue : s.queue = t.queue) (monitors : ∀ h, s.monitor h = t.monitor h)
    (records : s.records = t.records) (links : ∀ l, s.link l = t.link l) : s = t := by
  have hf := PerHead.ext_get fronts
  have hm := PerHead.ext_get monitors
  have hl := PerHead.ext_get fun h => links (.head h)
  have hc := links .cell
  have hlib : s.library = t.library := by
    apply Vector.ext; intro i hi; exact library ⟨i, hi⟩
  have hsites : s.sites = t.sites := by
    apply Vector.ext; intro i hi; exact sites ⟨i, hi⟩
  have hzones : s.zones = t.zones := by
    apply Vector.ext; intro i hi; exact zones ⟨i, hi⟩
  cases s; cases t
  simp only [State.link] at hl hc
  simp only at *
  subst pending clock resetHeld estop period hf hlib board hsites hzones queue hm records hl hc
  rfl

/-! ### Links -/

@[simp] theorem LinkState.offer_up (k : LinkState) (f : OutFrame) : (k.offer f).up = k.up := by
  unfold LinkState.offer; split <;> [split; skip] <;> rfl

@[simp] theorem LinkState.offer_tx (k : LinkState) (f : OutFrame) : (k.offer f).tx = k.tx := by
  unfold LinkState.offer; split <;> [split; skip] <;> rfl

@[simp] theorem LinkState.offer_assembly (k : LinkState) (f : OutFrame) :
    (k.offer f).assembly = k.assembly := by
  unfold LinkState.offer; split <;> [split; skip] <;> rfl

@[simp] theorem LinkState.offer_assemblyBad (k : LinkState) (f : OutFrame) :
    (k.offer f).assemblyBad = k.assemblyBad := by
  unfold LinkState.offer; split <;> [split; skip] <;> rfl

@[simp] theorem LinkState.offer_idleSince (k : LinkState) (f : OutFrame) :
    (k.offer f).idleSince = k.idleSince := by
  unfold LinkState.offer; split <;> [split; skip] <;> rfl

/-- All that offering a frame can do (R166, R170). -/
theorem LinkState.offer_cases (k : LinkState) (f : OutFrame) :
    (k.up = false ∧ k.offer f = k) ∨
    (k.up = true ∧ k.out.length < 16 ∧ k.offer f = { k with out := k.out ++ [f] }) ∨
    (k.up = true ∧ 16 ≤ k.out.length ∧ k.offer f = { k with overrun := true }) := by
  unfold LinkState.offer Config.outputSlots
  split
  · split
    · exact .inr (.inl ⟨‹_›, ‹_›, rfl⟩)
    · exact .inr (.inr ⟨‹_›, by omega, rfl⟩)
  · exact .inl ⟨by simpa using ‹¬ k.up = true›, rfl⟩

/-- The ranges of a link hold once a frame has been offered. -/
theorem LinkSound.offer {k : LinkState} (hk : LinkSound k) (f : OutFrame) :
    LinkSound (k.offer f) := by
  obtain ⟨-, h⟩ | ⟨up, room, h⟩ | ⟨up, -, h⟩ := k.offer_cases f
  · rwa [h]
  · rw [h]
    refine ⟨?_, hk.assembly, fun d => ?_⟩
    · simp [Config.outputSlots]; omega
    · simp [up] at d
  · rw [h]
    exact ⟨hk.room, hk.assembly, fun d => by simp [up] at d⟩

end Sys2Proof.Machine
end

