-- ==== Sys2Proof/Laws/CellLink.lean ====
section
/-! SUPPORT. The blocks neither read nor write the cell link: every operation commutes with exchanging
it (`State.withCell`), and so leaves it as it is. -/

namespace Sys2Proof.Machine

/-- The state with the cell link exchanged. -/
def State.withCell (s : State) (k : LinkState) : State := s.setLink .cell k

variable (s : State) (k : LinkState)

/-! ### What is read -/

@[simp] theorem State.withCell_pending : (s.withCell k).pending = s.pending := rfl

@[simp] theorem State.withCell_clock : (s.withCell k).clock = s.clock := rfl

@[simp] theorem State.withCell_resetHeld : (s.withCell k).resetHeld = s.resetHeld := rfl

@[simp] theorem State.withCell_estop : (s.withCell k).estop = s.estop := rfl

@[simp] theorem State.withCell_period : (s.withCell k).period = s.period := rfl

@[simp] theorem State.withCell_fronts : (s.withCell k).fronts = s.fronts := rfl

@[simp] theorem State.withCell_library : (s.withCell k).library = s.library := rfl

@[simp] theorem State.withCell_board : (s.withCell k).board = s.board := rfl

@[simp] theorem State.withCell_sites : (s.withCell k).sites = s.sites := rfl

@[simp] theorem State.withCell_zones : (s.withCell k).zones = s.zones := rfl

@[simp] theorem State.withCell_queue : (s.withCell k).queue = s.queue := rfl

@[simp] theorem State.withCell_monitors : (s.withCell k).monitors = s.monitors := rfl

@[simp] theorem State.withCell_records : (s.withCell k).records = s.records := rfl

@[simp] theorem State.withCell_headLinks : (s.withCell k).headLinks = s.headLinks := rfl

@[simp] theorem State.withCell_cellLink : (s.withCell k).cellLink = k := rfl

@[simp] theorem State.withCell_self : s.withCell s.cellLink = s := rfl

@[simp] theorem State.withCell_headLink (h : Head) :
    (s.withCell k).link (.head h) = s.link (.head h) := rfl

@[simp] theorem State.withCell_withCell (k' : LinkState) :
    (s.withCell k).withCell k' = s.withCell k' := rfl

/-- A reply on the cell link exchanges that link alone. -/
theorem State.withReply_cell (kind tag : Byte) (st : Status) (bytes : List Byte) :
    s.withReply .cell kind tag st bytes =
      s.withCell (s.withReply .cell kind tag st bytes).cellLink := rfl

@[simp] theorem State.withCell_front (h : Head) : (s.withCell k).front h = s.front h := rfl

@[simp] theorem State.withCell_monitor (h : Head) : (s.withCell k).monitor h = s.monitor h := rfl

@[simp] theorem State.withCell_typeSlot (t : Fin 48) :
    (s.withCell k).typeSlot t = s.typeSlot t := rfl

@[simp] theorem State.withCell_site (n : Fin 96) : (s.withCell k).site n = s.site n := rfl

@[simp] theorem State.withCell_holder (z : Fin 32) : (s.withCell k).holder z = s.holder z := rfl

@[simp] theorem State.withCell_permitOut (h : Head) :
    (s.withCell k).permitOut h = s.permitOut h := rfl

@[simp] theorem State.withCell_attn : (s.withCell k).attn = s.attn := rfl

@[simp] theorem State.withCell_reserved : (s.withCell k).reserved = s.reserved := rfl

@[simp] theorem State.withCell_slotFree : (s.withCell k).slotFree = s.slotFree := rfl

@[simp] theorem State.withCell_zonesHeld (h : Head) :
    (s.withCell k).zonesHeld h = s.zonesHeld h := rfl

@[simp] theorem State.withCell_pendingCount : (s.withCell k).pendingCount = s.pendingCount := rfl

@[simp] theorem State.withCell_someUnacknowledged :
    (s.withCell k).someUnacknowledged = s.someUnacknowledged := rfl

@[simp] theorem State.withCell_entryOf (h : Head) : (s.withCell k).entryOf h = s.entryOf h := rfl

@[simp] theorem State.withCell_claimOf (h : Head) : (s.withCell k).claimOf h = s.claimOf h := rfl

@[simp] theorem State.withCell_queuePosition (h : Head) :
    (s.withCell k).queuePosition h = s.queuePosition h := rfl

@[simp] theorem State.withCell_meets (c : Claim) : (s.withCell k).meets c = s.meets c := rfl

@[simp] theorem State.withCell_typeAt (n : Fin 96) : (s.withCell k).typeAt n = s.typeAt n := rfl

@[simp] theorem State.withCell_typeStateAt (n : Fin 96) :
    (s.withCell k).typeStateAt n = s.typeStateAt n := rfl

@[simp] theorem State.withCell_keepOut (n : Fin 96) : (s.withCell k).keepOut n = s.keepOut n := rfl

@[simp] theorem State.withCell_typeNamed (t : Fin 48) :
    (s.withCell k).typeNamed t = s.typeNamed t := rfl

@[simp] theorem State.withCell_countSites (p : SiteEntry → Bool) :
    (s.withCell k).countSites p = s.countSites p := rfl

@[simp] theorem State.withCell_waitingOnType (t : Fin 48) :
    (s.withCell k).waitingOnType t = s.waitingOnType t := rfl

@[simp] theorem State.withCell_waitingOnSite (n : Fin 96) :
    (s.withCell k).waitingOnSite n = s.waitingOnSite n := rfl

@[simp] theorem State.withCell_olderThan (h : Head) :
    (s.withCell k).olderThan h = s.olderThan h := rfl

@[simp] theorem State.withCell_blocked (e : QueueEntry) :
    (s.withCell k).blocked e = s.blocked e := rfl

@[simp] theorem State.withCell_zonesFree (n : Fin 96) :
    (s.withCell k).zonesFree n = s.zonesFree n := rfl

@[simp] theorem State.withCell_grantable (e : QueueEntry) :
    (s.withCell k).grantable e = s.grantable e := rfl

@[simp] theorem State.withCell_missing (h : Head) (c : Claim) :
    (s.withCell k).missing h c = s.missing h c := rfl

@[simp] theorem State.withCell_definable (n : Fin 96) :
    (s.withCell k).definable n = s.definable n := rfl

/-! ### Operations that queue no frame -/

@[simp] theorem State.withCell_setFront (h : Head) (f : FrontEnd) :
    (s.withCell k).setFront h f = (s.setFront h f).withCell k := rfl

@[simp] theorem State.withCell_setMonitor (h : Head) (m : Monitor) :
    (s.withCell k).setMonitor h m = (s.setMonitor h m).withCell k := rfl

@[simp] theorem State.withCell_setType (t : Fin 48) (slot : TypeSlot) :
    (s.withCell k).setType t slot = (s.setType t slot).withCell k := rfl

@[simp] theorem State.withCell_setSite (n : Fin 96) (e : Option SiteEntry) :
    (s.withCell k).setSite n e = (s.setSite n e).withCell k := rfl

@[simp] theorem State.withCell_leaveQueue (h : Head) :
    (s.withCell k).leaveQueue h = (s.leaveQueue h).withCell k := rfl

@[simp] theorem State.withCell_freeZones (h : Head) :
    (s.withCell k).freeZones h = (s.freeZones h).withCell k := by
  unfold State.freeZones; simp only [State.withCell_holder]; rfl

@[simp] theorem State.withCell_takeZones (h : Head) (zs : List (Fin 32)) :
    (s.withCell k).takeZones h zs = (s.takeZones h zs).withCell k := by
  unfold State.takeZones; simp only [State.withCell_holder]; rfl

@[simp] theorem State.withCell_toIdle (h : Head) :
    (s.withCell k).toIdle h = (s.toIdle h).withCell k := rfl

@[simp] theorem State.withCell_changeSite (n : Fin 96) (g : SiteEntry → SiteEntry) :
    (s.withCell k).changeSite n g = (s.changeSite n g).withCell k := rfl

@[simp] theorem State.withCell_returnSite (h : Head) :
    (s.withCell k).returnSite h = (s.returnSite h).withCell k := by
  unfold State.returnSite; simp only [State.withCell_monitor]; split <;> rfl

@[simp] theorem State.withCell_raiseBypass (older : List QueueEntry) (n : Fin 96) :
    (s.withCell k).raiseBypass older n = (s.raiseBypass older n).withCell k := rfl

@[simp] theorem State.withCell_appendRecord (q : PressRecord) :
    (s.withCell k).appendRecord q = (s.appendRecord q).withCell k := rfl

@[simp] theorem State.withCell_appendDue (q : Option PressRecord) :
    (s.withCell k).appendDue q = (s.appendDue q).withCell k := by
  unfold State.appendDue; split <;> rfl

@[simp] theorem State.withCell_closeBoard :
    (s.withCell k).closeBoard = (s.closeBoard).withCell k := rfl

@[simp] theorem State.withCell_joinQueue (h : Head) (c : Claim) :
    (s.withCell k).joinQueue h c = (s.joinQueue h c).withCell k := rfl

@[simp] theorem State.withCell_startStroke (h : Head) (c : Claim) (w : WorkingCopy) :
    (s.withCell k).startStroke h c w = (s.startStroke h c w).withCell k := rfl

@[simp] theorem State.withCell_setPeriod (p : Period) :
    (s.withCell k).setPeriod p = (s.setPeriod p).withCell k := by
  by_cases h :
    p = s.period <;> simp only [State.setPeriod, State.withCell_period, h, if_true, if_false]
  rfl

@[simp] theorem State.withCell_resetLibrary :
    (s.withCell k).resetLibrary = (s.resetLibrary).withCell k := by
  unfold State.resetLibrary; simp only [State.withCell_typeSlot]; rfl

@[simp] theorem State.withCell_clearSession :
    (s.withCell k).clearSession = (s.clearSession).withCell k := rfl

@[simp] theorem State.withCell_openBoard (n : BitVec 32) (b b' : Nat) (p : Period) :
    (s.withCell k).openBoard n b b' p = (s.openBoard n b b' p).withCell k := by
  unfold State.openBoard; rw [State.withCell_setPeriod]; rfl

/-! ### The operations of the blocks, each once -/

@[simp] theorem State.withCell_event (h : Head) (kind : Byte) (bytes : List Byte) :
    (s.withCell k).event h kind bytes = (s.event h kind bytes).withCell k := rfl

variable {s}

@[simp] theorem State.withCell_eventGranted (h : Head) (c : Claim) (w : WorkingCopy) :
    (s.withCell k).eventGranted h c w = (s.eventGranted h c w).withCell k := rfl

@[simp] theorem State.withCell_dropEntry (a : Option Head) (q : ClaimReason) (e : QueueEntry) :
    (s.withCell k).dropEntry a q e = (s.dropEntry a q e).withCell k := by
  unfold State.dropEntry
  simp only [State.withCell_leaveQueue, State.withCell_setMonitor, State.eventDropped,
    State.withCell_event]
  split <;> rfl

@[simp] theorem State.dropEntry_cellLink (a : Option Head) (q : ClaimReason) (e : QueueEntry) :
    (s.dropEntry a q e).cellLink = s.cellLink := by
  have h := State.withCell_dropEntry (s := s) s.cellLink a q e
  rw [State.withCell_self] at h
  exact (congrArg State.cellLink h).trans (State.withCell_cellLink _ _)

@[simp] theorem State.withCell_dropAll (a : Option Head) (q : ClaimReason) (es : List QueueEntry) :
    (s.withCell k).dropAll a q es = (s.dropAll a q es).withCell k := by
  unfold State.dropAll
  induction es generalizing s with
  | nil => rfl
  | cons e es ih => simp only [List.foldl_cons, State.withCell_dropEntry, ih]

@[simp] theorem State.dropAll_cellLink (a : Option Head) (q : ClaimReason) (es : List QueueEntry) :
    (s.dropAll a q es).cellLink = s.cellLink := by
  have h := State.withCell_dropAll (s := s) s.cellLink a q es
  rw [State.withCell_self] at h
  exact (congrArg State.cellLink h).trans (State.withCell_cellLink _ _)

@[simp] theorem State.withCell_dropBroken (a : Option Head) (t : Fin 48) :
    (s.withCell k).dropBroken a t = (s.dropBroken a t).withCell k := State.withCell_dropAll ..

@[simp] theorem State.dropBroken_cellLink (a : Option Head) (t : Fin 48) :
    (s.dropBroken a t).cellLink = s.cellLink := by
  have h := State.withCell_dropBroken (s := s) s.cellLink a t
  rw [State.withCell_self] at h
  exact (congrArg State.cellLink h).trans (State.withCell_cellLink _ _)

@[simp] theorem State.withCell_installType (t : Fin 48) :
    (s.withCell k).installType t = ⟨(s.installType t).state.withCell k, (s.installType t).due⟩ := by
  unfold State.installType
  simp only [State.withCell_typeSlot, State.withCell_setType, State.withCell_waitingOnType,
    State.withCell_dropBroken]
  split <;> rfl

@[simp] theorem State.installType_cellLink (t : Fin 48) :
    (s.installType t).state.cellLink = s.cellLink := by
  have h := State.withCell_installType (s := s) s.cellLink t
  rw [State.withCell_self] at h
  exact congrArg (fun p => p.state.cellLink) h

@[simp] theorem State.withCell_releaseUser (t : Fin 48) :
    (s.withCell k).releaseUser t = ⟨(s.releaseUser t).state.withCell k, (s.releaseUser t).due⟩ := by
  unfold State.releaseUser
  simp only [State.withCell_typeSlot, State.withCell_setType, State.withCell_installType]
  split <;> rfl

@[simp] theorem State.releaseUser_cellLink (t : Fin 48) :
    (s.releaseUser t).state.cellLink = s.cellLink := by
  have h := State.withCell_releaseUser (s := s) s.cellLink t
  rw [State.withCell_self] at h
  exact congrArg (fun p => p.state.cellLink) h

@[simp] theorem State.withCell_releaseUserOf (h : Head) :
    (s.withCell k).releaseUserOf h = ⟨(s.releaseUserOf h).state.withCell k, (s.releaseUserOf h).due⟩ := by
  unfold State.releaseUserOf
  simp only [State.withCell_monitor, State.withCell_releaseUser]
  split <;> rfl

@[simp] theorem State.releaseUserOf_cellLink (h : Head) :
    (s.releaseUserOf h).state.cellLink = s.cellLink := by
  have h := State.withCell_releaseUserOf (s := s) s.cellLink h
  rw [State.withCell_self] at h
  exact congrArg (fun p => p.state.cellLink) h

@[simp] theorem State.withCell_endArmed (h : Head) :
    (s.withCell k).endArmed h = (s.endArmed h).withCell k := by
  unfold State.endArmed
  simp only [State.withCell_returnSite, State.withCell_freeZones, State.withCell_releaseUserOf,
    State.withCell_toIdle]

@[simp] theorem State.endArmed_cellLink (h : Head) : (s.endArmed h).cellLink = s.cellLink := by
  have h := State.withCell_endArmed (s := s) s.cellLink h
  rw [State.withCell_self] at h
  exact (congrArg State.cellLink h).trans (State.withCell_cellLink _ _)

@[simp] theorem State.withCell_revoke (h : Head) (q : ClaimReason) :
    (s.withCell k).revoke h q = (s.revoke h q).withCell k := by
  unfold State.revoke
  simp only [State.withCell_monitor, State.withCell_endArmed, State.eventRevoked,
    State.withCell_event]
  repeat' split
  all_goals rfl

@[simp] theorem State.revoke_cellLink (h : Head) (q : ClaimReason) :
    (s.revoke h q).cellLink = s.cellLink := by
  have h := State.withCell_revoke (s := s) s.cellLink h q
  rw [State.withCell_self] at h
  exact (congrArg State.cellLink h).trans (State.withCell_cellLink _ _)

@[simp] theorem State.withCell_grant (e : QueueEntry) (t : Fin 48) (q : TypeRecord) :
    (s.withCell k).grant e t q = (s.grant e t q).withCell k := by
  unfold State.grant
  simp only [State.withCell_typeSlot, State.withCell_setType, State.withCell_keepOut,
    State.withCell_takeZones, State.withCell_changeSite, State.withCell_leaveQueue,
    State.withCell_clock, State.withCell_setMonitor, State.withCell_eventGranted]

@[simp] theorem State.grant_cellLink (e : QueueEntry) (t : Fin 48) (q : TypeRecord) :
    (s.grant e t q).cellLink = s.cellLink := by
  have h := State.withCell_grant (s := s) s.cellLink e t q
  rw [State.withCell_self] at h
  exact (congrArg State.cellLink h).trans (State.withCell_cellLink _ _)

@[simp] theorem State.withCell_afterGrant (a : Option Head) (older : List QueueEntry) (n : Fin 96) :
    (s.withCell k).afterGrant a older n = (s.afterGrant a older n).withCell k := by
  unfold State.afterGrant
  simp only [State.withCell_waitingOnSite, State.withCell_dropAll, State.withCell_raiseBypass]

@[simp] theorem State.afterGrant_cellLink (a : Option Head) (older : List QueueEntry) (n :
    Fin 96) : (s.afterGrant a older n).cellLink = s.cellLink := by
  have h := State.withCell_afterGrant (s := s) s.cellLink a older n
  rw [State.withCell_self] at h
  exact (congrArg State.cellLink h).trans (State.withCell_cellLink _ _)

@[simp] theorem State.withCell_breakType (a : Option Head) (t : Fin 48) :
    (s.withCell k).breakType a t = (s.breakType a t).withCell k := by
  unfold State.breakType
  simp only [State.withCell_typeSlot, State.withCell_setType, State.withCell_dropBroken]

@[simp] theorem State.breakType_cellLink (a : Option Head) (t : Fin 48) :
    (s.breakType a t).cellLink = s.cellLink := by
  have h := State.withCell_breakType (s := s) s.cellLink a t
  rw [State.withCell_self] at h
  exact (congrArg State.cellLink h).trans (State.withCell_cellLink _ _)

@[simp] theorem State.withCell_tryGrant (a : Option Head) (e : QueueEntry) (t : Fin 48) :
    (s.withCell k).tryGrant a e t = (s.tryGrant a e t).withCell k := by
  unfold State.tryGrant
  simp only [State.withCell_typeSlot, State.withCell_olderThan, State.withCell_grant,
    State.withCell_afterGrant, State.withCell_breakType]
  split <;> rfl

@[simp] theorem State.tryGrant_cellLink (a : Option Head) (e : QueueEntry) (t : Fin 48) :
    (s.tryGrant a e t).cellLink = s.cellLink := by
  have h := State.withCell_tryGrant (s := s) s.cellLink a e t
  rw [State.withCell_self] at h
  exact (congrArg State.cellLink h).trans (State.withCell_cellLink _ _)

@[simp] theorem State.withCell_passEntry (a : Option Head) (e : QueueEntry) :
    (s.withCell k).passEntry a e = (s.passEntry a e).withCell k := by
  unfold State.passEntry
  simp only [State.withCell_meets, State.withCell_grantable, State.withCell_typeAt,
    State.withCell_tryGrant, State.withCell_dropEntry]
  repeat' split
  all_goals rfl

@[simp] theorem State.passEntry_cellLink (a : Option Head) (e : QueueEntry) :
    (s.passEntry a e).cellLink = s.cellLink := by
  have h := State.withCell_passEntry (s := s) s.cellLink a e
  rw [State.withCell_self] at h
  exact (congrArg State.cellLink h).trans (State.withCell_cellLink _ _)

@[simp] theorem State.withCell_passOver (a : Option Head) (hs : List Head) :
    State.passOver a hs (s.withCell k) = (State.passOver a hs s).withCell k := by
  induction hs generalizing s with
  | nil => rfl
  | cons h hs ih =>
    unfold State.passOver; simp only [State.withCell_entryOf, State.withCell_passEntry]; split
    · exact ih
    · exact ih

@[simp] theorem State.withCell_pass (a : Option Head) :
    (s.withCell k).pass a = (s.pass a).withCell k := State.withCell_passOver ..

@[simp] theorem State.pass_cellLink (a : Option Head) : (s.pass a).cellLink = s.cellLink := by
  have h := State.withCell_pass (s := s) s.cellLink a
  rw [State.withCell_self] at h
  exact (congrArg State.cellLink h).trans (State.withCell_cellLink _ _)

@[simp] theorem Passing.withCell_run (due : Bool) :
    (⟨s.withCell k, due⟩ : Passing).run = (⟨s, due⟩ : Passing).run.withCell k := by
  unfold Passing.run; simp only [State.withCell_pass]; split <;> rfl

@[simp] theorem Passing.run_cellLink (p : Passing) : p.run.cellLink = p.state.cellLink := by
  have h := Passing.withCell_run (s := p.state) p.state.cellLink p.due
  rw [State.withCell_self] at h
  rw [h]; rfl

@[simp] theorem State.withCell_abortStroke (h : Head) (c : Cause) (further : List Cause) :
    (s.withCell k).abortStroke h c further = ⟨(s.abortStroke h c further).state.withCell k, (s.abortStroke h c further).due⟩ := by
  unfold State.abortStroke
  simp only [State.withCell_monitor, State.withCell_front, State.withCell_setMonitor,
    State.withCell_changeSite, State.withCell_releaseUser, State.withCell_setFront,
    State.eventAborted, State.withCell_event]
  split <;> rfl

@[simp] theorem State.abortStroke_cellLink (h : Head) (c : Cause) (further : List Cause) :
    (s.abortStroke h c further).state.cellLink = s.cellLink := by
  have h := State.withCell_abortStroke (s := s) s.cellLink h c further
  rw [State.withCell_self] at h
  exact congrArg (fun p => p.state.cellLink) h

@[simp] theorem State.withCell_strike (h : Head) (c : Cause) :
    (s.withCell k).strike h c = ⟨(s.strike h c).state.withCell k, (s.strike h c).due⟩ := by
  unfold State.strike
  simp only [State.withCell_monitor, State.withCell_setMonitor, State.withCell_abortStroke]
  split <;> rfl

@[simp] theorem State.strike_cellLink (h : Head) (c : Cause) :
    (s.strike h c).state.cellLink = s.cellLink := by
  have h := State.withCell_strike (s := s) s.cellLink h c
  rw [State.withCell_self] at h
  exact congrArg (fun p => p.state.cellLink) h

@[simp] theorem State.withCell_closeIfAborted :
    (s.withCell k).closeIfAborted = s.closeIfAborted.withCell k := by
  unfold State.closeIfAborted
  by_cases h : s.board.state = .aborting ∧ s.someUnacknowledged = false
  · have h' : (s.withCell k).board.state = .aborting ∧
      (s.withCell k).someUnacknowledged = false := h
    rw [if_pos h, if_pos h']; rfl
  · have h' : ¬ ((s.withCell k).board.state = .aborting ∧
      (s.withCell k).someUnacknowledged = false) := h
    rw [if_neg h, if_neg h']

@[simp] theorem State.closeIfAborted_cellLink : s.closeIfAborted.cellLink = s.cellLink := by
  have h := State.withCell_closeIfAborted (s := s) s.cellLink
  rw [State.withCell_self] at h
  rw [h]; rfl

@[simp] theorem State.withCell_leaveStroke (h : Head) :
    (s.withCell k).leaveStroke h = (s.leaveStroke h).withCell k := by
  unfold State.leaveStroke
  simp only [State.withCell_freeZones, State.withCell_toIdle, State.withCell_pass,
    State.withCell_closeIfAborted]

@[simp] theorem State.leaveStroke_cellLink (h : Head) :
    (s.leaveStroke h).cellLink = s.cellLink := by
  have h := State.withCell_leaveStroke (s := s) s.cellLink h
  rw [State.withCell_self] at h
  exact (congrArg State.cellLink h).trans (State.withCell_cellLink _ _)

@[simp] theorem State.withCell_endHead (q : ClaimReason) (c : Cause) (h : Head) :
    (s.withCell k).endHead q c h = (s.endHead q c h).withCell k := by
  unfold State.endHead
  simp only [State.withCell_monitor, State.withCell_revoke, State.withCell_strike]
  split <;> rfl

@[simp] theorem State.endHead_cellLink (q : ClaimReason) (c : Cause) (h : Head) :
    (s.endHead q c h).cellLink = s.cellLink := by
  have h := State.withCell_endHead (s := s) s.cellLink q c h
  rw [State.withCell_self] at h
  exact (congrArg State.cellLink h).trans (State.withCell_cellLink _ _)

theorem State.withCell_foldl {α : Type} {g : State → α → State}
    (hg : ∀ s x, g (s.withCell k) x = (g s x).withCell k) (xs : List α) :
    xs.foldl g (s.withCell k) = (xs.foldl g s).withCell k := by
  induction xs generalizing s with
  | nil => rfl
  | cons x xs ih => simp only [List.foldl_cons, hg, ih]

@[simp] theorem State.withCell_endEverything (q : ClaimReason) (c : Cause) :
    (s.withCell k).endEverything q c = (s.endEverything q c).withCell k := by
  unfold State.endEverything
  rw [State.withCell_queue, State.withCell_dropAll]
  exact State.withCell_foldl _ (fun _ x => State.withCell_endHead _ _ _ x) _

@[simp] theorem State.endEverything_cellLink (q : ClaimReason) (c : Cause) :
    (s.endEverything q c).cellLink = s.cellLink := by
  have h := State.withCell_endEverything (s := s) s.cellLink q c
  rw [State.withCell_self] at h
  exact (congrArg State.cellLink h).trans (State.withCell_cellLink _ _)

@[simp] theorem State.withCell_abortBoard :
    (s.withCell k).abortBoard = (s.abortBoard).withCell k := by
  unfold State.abortBoard
  rw [← State.withCell_closeIfAborted, ← State.withCell_endEverything]
  rfl

@[simp] theorem State.abortBoard_cellLink : (s.abortBoard).cellLink = s.cellLink := by
  have h := State.withCell_abortBoard (s := s) s.cellLink
  rw [State.withCell_self] at h
  exact (congrArg State.cellLink h).trans (State.withCell_cellLink _ _)

@[simp] theorem State.withCell_endSiteClaims (n : Fin 96) (c : Option Head) :
    (s.withCell k).endSiteClaims n c = (s.endSiteClaims n c).withCell k := by
  unfold State.endSiteClaims
  cases c <;> simp only [State.withCell_revoke, State.withCell_waitingOnSite,
    State.withCell_dropAll, State.withCell_pass] <;> split <;> rfl

@[simp] theorem State.endSiteClaims_cellLink (n : Fin 96) (c : Option Head) :
    (s.endSiteClaims n c).cellLink = s.cellLink := by
  have h := State.withCell_endSiteClaims (s := s) s.cellLink n c
  rw [State.withCell_self] at h
  exact (congrArg State.cellLink h).trans (State.withCell_cellLink _ _)

@[simp] theorem State.withCell_placeRecord (t : Fin 48) (q : TypeRecord) :
    (s.withCell k).placeRecord t q = (s.placeRecord t q).withCell k := by
  unfold State.placeRecord
  simp only [State.withCell_typeSlot, State.withCell_setType, State.withCell_pass]
  split <;> rfl

@[simp] theorem State.placeRecord_cellLink (t : Fin 48) (q : TypeRecord) :
    (s.placeRecord t q).cellLink = s.cellLink := by
  have h := State.withCell_placeRecord (s := s) s.cellLink t q
  rw [State.withCell_self] at h
  exact (congrArg State.cellLink h).trans (State.withCell_cellLink _ _)

@[simp] theorem State.withCell_resetHead (h : Head) :
    (s.withCell k).resetHead h = (s.resetHead h).withCell k := by
  unfold State.resetHead
  simp only [State.withCell_monitor, State.withCell_revoke, State.withCell_abortStroke]
  repeat' split
  all_goals rfl

@[simp] theorem State.resetHead_cellLink (h : Head) : (s.resetHead h).cellLink = s.cellLink := by
  have h := State.withCell_resetHead (s := s) s.cellLink h
  rw [State.withCell_self] at h
  exact (congrArg State.cellLink h).trans (State.withCell_cellLink _ _)

@[simp] theorem State.withCell_warmReset :
    (s.withCell k).warmReset = (s.warmReset).withCell k := by
  unfold State.warmReset
  rw [State.withCell_queue, State.withCell_dropAll, State.withCell_resetLibrary,
    State.withCell_closeBoard, State.withCell_foldl _ (fun _ x => State.withCell_resetHead _ x),
    State.withCell_clearSession]

@[simp] theorem State.warmReset_cellLink : (s.warmReset).cellLink = s.cellLink := by
  have h := State.withCell_warmReset (s := s) s.cellLink
  rw [State.withCell_self] at h
  exact (congrArg State.cellLink h).trans (State.withCell_cellLink _ _)

end Sys2Proof.Machine
end

