-- ==== Sys2Proof/Laws/Frames.lean ====
section
/-! SUPPORT. What the operations of the blocks leave as it is, field by field; and, for the claim queue's
drops and its pass, what they do. -/

namespace Sys2Proof.Machine

variable {s : State}

/-! ### The fields an operation does not write -/

@[simp] theorem State.eventDropped_pending (h : Head) (n : Fin 96) (r : ClaimReason) :
    (s.eventDropped h n r).pending = s.pending := by
  rfl

@[simp] theorem State.eventDropped_clock (h : Head) (n : Fin 96) (r : ClaimReason) :
    (s.eventDropped h n r).clock = s.clock := by
  rfl

@[simp] theorem State.eventDropped_resetHeld (h : Head) (n : Fin 96) (r : ClaimReason) :
    (s.eventDropped h n r).resetHeld = s.resetHeld := by
  rfl

@[simp] theorem State.eventDropped_estop (h : Head) (n : Fin 96) (r : ClaimReason) :
    (s.eventDropped h n r).estop = s.estop := by
  rfl

@[simp] theorem State.eventDropped_period (h : Head) (n : Fin 96) (r : ClaimReason) :
    (s.eventDropped h n r).period = s.period := by
  rfl

@[simp] theorem State.eventDropped_fronts (h : Head) (n : Fin 96) (r : ClaimReason) :
    (s.eventDropped h n r).fronts = s.fronts := by
  rfl

@[simp] theorem State.eventDropped_board (h : Head) (n : Fin 96) (r : ClaimReason) :
    (s.eventDropped h n r).board = s.board := by
  rfl

@[simp] theorem State.eventDropped_records (h : Head) (n : Fin 96) (r : ClaimReason) :
    (s.eventDropped h n r).records = s.records := by
  rfl

@[simp] theorem State.eventDropped_library (h : Head) (n : Fin 96) (r : ClaimReason) :
    (s.eventDropped h n r).library = s.library := by
  rfl

@[simp] theorem State.eventDropped_sites (h : Head) (n : Fin 96) (r : ClaimReason) :
    (s.eventDropped h n r).sites = s.sites := by
  rfl

@[simp] theorem State.eventDropped_zones (h : Head) (n : Fin 96) (r : ClaimReason) :
    (s.eventDropped h n r).zones = s.zones := by
  rfl

@[simp] theorem State.eventDropped_queue (h : Head) (n : Fin 96) (r : ClaimReason) :
    (s.eventDropped h n r).queue = s.queue := by
  rfl

@[simp] theorem State.eventDropped_monitors (h : Head) (n : Fin 96) (r : ClaimReason) :
    (s.eventDropped h n r).monitors = s.monitors := by
  rfl

@[simp] theorem State.eventDropped_cellLink (h : Head) (n : Fin 96) (r : ClaimReason) :
    (s.eventDropped h n r).cellLink = s.cellLink := by
  rfl

@[simp] theorem State.eventRevoked_pending (h : Head) (n : Fin 96) (r : ClaimReason) :
    (s.eventRevoked h n r).pending = s.pending := by
  rfl

@[simp] theorem State.eventRevoked_clock (h : Head) (n : Fin 96) (r : ClaimReason) :
    (s.eventRevoked h n r).clock = s.clock := by
  rfl

@[simp] theorem State.eventRevoked_resetHeld (h : Head) (n : Fin 96) (r : ClaimReason) :
    (s.eventRevoked h n r).resetHeld = s.resetHeld := by
  rfl

@[simp] theorem State.eventRevoked_estop (h : Head) (n : Fin 96) (r : ClaimReason) :
    (s.eventRevoked h n r).estop = s.estop := by
  rfl

@[simp] theorem State.eventRevoked_period (h : Head) (n : Fin 96) (r : ClaimReason) :
    (s.eventRevoked h n r).period = s.period := by
  rfl

@[simp] theorem State.eventRevoked_fronts (h : Head) (n : Fin 96) (r : ClaimReason) :
    (s.eventRevoked h n r).fronts = s.fronts := by
  rfl

@[simp] theorem State.eventRevoked_board (h : Head) (n : Fin 96) (r : ClaimReason) :
    (s.eventRevoked h n r).board = s.board := by
  rfl

@[simp] theorem State.eventRevoked_records (h : Head) (n : Fin 96) (r : ClaimReason) :
    (s.eventRevoked h n r).records = s.records := by
  rfl

@[simp] theorem State.eventRevoked_library (h : Head) (n : Fin 96) (r : ClaimReason) :
    (s.eventRevoked h n r).library = s.library := by
  rfl

@[simp] theorem State.eventRevoked_sites (h : Head) (n : Fin 96) (r : ClaimReason) :
    (s.eventRevoked h n r).sites = s.sites := by
  rfl

@[simp] theorem State.eventRevoked_zones (h : Head) (n : Fin 96) (r : ClaimReason) :
    (s.eventRevoked h n r).zones = s.zones := by
  rfl

@[simp] theorem State.eventRevoked_queue (h : Head) (n : Fin 96) (r : ClaimReason) :
    (s.eventRevoked h n r).queue = s.queue := by
  rfl

@[simp] theorem State.eventRevoked_monitors (h : Head) (n : Fin 96) (r : ClaimReason) :
    (s.eventRevoked h n r).monitors = s.monitors := by
  rfl

@[simp] theorem State.eventRevoked_cellLink (h : Head) (n : Fin 96) (r : ClaimReason) :
    (s.eventRevoked h n r).cellLink = s.cellLink := by
  rfl

@[simp] theorem State.eventExpired_pending (h : Head) (n : Fin 96) :
    (s.eventExpired h n).pending = s.pending := by
  rfl

@[simp] theorem State.eventExpired_clock (h : Head) (n : Fin 96) :
    (s.eventExpired h n).clock = s.clock := by
  rfl

@[simp] theorem State.eventExpired_resetHeld (h : Head) (n : Fin 96) :
    (s.eventExpired h n).resetHeld = s.resetHeld := by
  rfl

@[simp] theorem State.eventExpired_estop (h : Head) (n : Fin 96) :
    (s.eventExpired h n).estop = s.estop := by
  rfl

@[simp] theorem State.eventExpired_period (h : Head) (n : Fin 96) :
    (s.eventExpired h n).period = s.period := by
  rfl

@[simp] theorem State.eventExpired_fronts (h : Head) (n : Fin 96) :
    (s.eventExpired h n).fronts = s.fronts := by
  rfl

@[simp] theorem State.eventExpired_board (h : Head) (n : Fin 96) :
    (s.eventExpired h n).board = s.board := by
  rfl

@[simp] theorem State.eventExpired_records (h : Head) (n : Fin 96) :
    (s.eventExpired h n).records = s.records := by
  rfl

@[simp] theorem State.eventExpired_library (h : Head) (n : Fin 96) :
    (s.eventExpired h n).library = s.library := by
  rfl

@[simp] theorem State.eventExpired_sites (h : Head) (n : Fin 96) :
    (s.eventExpired h n).sites = s.sites := by
  rfl

@[simp] theorem State.eventExpired_zones (h : Head) (n : Fin 96) :
    (s.eventExpired h n).zones = s.zones := by
  rfl

@[simp] theorem State.eventExpired_queue (h : Head) (n : Fin 96) :
    (s.eventExpired h n).queue = s.queue := by
  rfl

@[simp] theorem State.eventExpired_monitors (h : Head) (n : Fin 96) :
    (s.eventExpired h n).monitors = s.monitors := by
  rfl

@[simp] theorem State.eventExpired_cellLink (h : Head) (n : Fin 96) :
    (s.eventExpired h n).cellLink = s.cellLink := by
  rfl

@[simp] theorem State.eventGranted_pending (h : Head) (c : Claim) (w : WorkingCopy) :
    (s.eventGranted h c w).pending = s.pending := by
  rfl

@[simp] theorem State.eventGranted_clock (h : Head) (c : Claim) (w : WorkingCopy) :
    (s.eventGranted h c w).clock = s.clock := by
  rfl

@[simp] theorem State.eventGranted_resetHeld (h : Head) (c : Claim) (w : WorkingCopy) :
    (s.eventGranted h c w).resetHeld = s.resetHeld := by
  rfl

@[simp] theorem State.eventGranted_estop (h : Head) (c : Claim) (w : WorkingCopy) :
    (s.eventGranted h c w).estop = s.estop := by
  rfl

@[simp] theorem State.eventGranted_period (h : Head) (c : Claim) (w : WorkingCopy) :
    (s.eventGranted h c w).period = s.period := by
  rfl

@[simp] theorem State.eventGranted_fronts (h : Head) (c : Claim) (w : WorkingCopy) :
    (s.eventGranted h c w).fronts = s.fronts := by
  rfl

@[simp] theorem State.eventGranted_board (h : Head) (c : Claim) (w : WorkingCopy) :
    (s.eventGranted h c w).board = s.board := by
  rfl

@[simp] theorem State.eventGranted_records (h : Head) (c : Claim) (w : WorkingCopy) :
    (s.eventGranted h c w).records = s.records := by
  rfl

@[simp] theorem State.eventGranted_library (h : Head) (c : Claim) (w : WorkingCopy) :
    (s.eventGranted h c w).library = s.library := by
  rfl

@[simp] theorem State.eventGranted_sites (h : Head) (c : Claim) (w : WorkingCopy) :
    (s.eventGranted h c w).sites = s.sites := by
  rfl

@[simp] theorem State.eventGranted_zones (h : Head) (c : Claim) (w : WorkingCopy) :
    (s.eventGranted h c w).zones = s.zones := by
  rfl

@[simp] theorem State.eventGranted_queue (h : Head) (c : Claim) (w : WorkingCopy) :
    (s.eventGranted h c w).queue = s.queue := by
  rfl

@[simp] theorem State.eventGranted_monitors (h : Head) (c : Claim) (w : WorkingCopy) :
    (s.eventGranted h c w).monitors = s.monitors := by
  rfl

@[simp] theorem State.eventGranted_cellLink (h : Head) (c : Claim) (w : WorkingCopy) :
    (s.eventGranted h c w).cellLink = s.cellLink := by
  rfl

@[simp] theorem State.eventContact_pending (h : Head) (n : Fin 96) (k : Stroke) :
    (s.eventContact h n k).pending = s.pending := by
  rfl

@[simp] theorem State.eventContact_clock (h : Head) (n : Fin 96) (k : Stroke) :
    (s.eventContact h n k).clock = s.clock := by
  rfl

@[simp] theorem State.eventContact_resetHeld (h : Head) (n : Fin 96) (k : Stroke) :
    (s.eventContact h n k).resetHeld = s.resetHeld := by
  rfl

@[simp] theorem State.eventContact_estop (h : Head) (n : Fin 96) (k : Stroke) :
    (s.eventContact h n k).estop = s.estop := by
  rfl

@[simp] theorem State.eventContact_period (h : Head) (n : Fin 96) (k : Stroke) :
    (s.eventContact h n k).period = s.period := by
  rfl

@[simp] theorem State.eventContact_fronts (h : Head) (n : Fin 96) (k : Stroke) :
    (s.eventContact h n k).fronts = s.fronts := by
  rfl

@[simp] theorem State.eventContact_board (h : Head) (n : Fin 96) (k : Stroke) :
    (s.eventContact h n k).board = s.board := by
  rfl

@[simp] theorem State.eventContact_records (h : Head) (n : Fin 96) (k : Stroke) :
    (s.eventContact h n k).records = s.records := by
  rfl

@[simp] theorem State.eventContact_library (h : Head) (n : Fin 96) (k : Stroke) :
    (s.eventContact h n k).library = s.library := by
  rfl

@[simp] theorem State.eventContact_sites (h : Head) (n : Fin 96) (k : Stroke) :
    (s.eventContact h n k).sites = s.sites := by
  rfl

@[simp] theorem State.eventContact_zones (h : Head) (n : Fin 96) (k : Stroke) :
    (s.eventContact h n k).zones = s.zones := by
  rfl

@[simp] theorem State.eventContact_queue (h : Head) (n : Fin 96) (k : Stroke) :
    (s.eventContact h n k).queue = s.queue := by
  rfl

@[simp] theorem State.eventContact_monitors (h : Head) (n : Fin 96) (k : Stroke) :
    (s.eventContact h n k).monitors = s.monitors := by
  rfl

@[simp] theorem State.eventContact_cellLink (h : Head) (n : Fin 96) (k : Stroke) :
    (s.eventContact h n k).cellLink = s.cellLink := by
  rfl

@[simp] theorem State.eventSeated_pending (h : Head) (n : Fin 96) (k : Stroke) :
    (s.eventSeated h n k).pending = s.pending := by
  rfl

@[simp] theorem State.eventSeated_clock (h : Head) (n : Fin 96) (k : Stroke) :
    (s.eventSeated h n k).clock = s.clock := by
  rfl

@[simp] theorem State.eventSeated_resetHeld (h : Head) (n : Fin 96) (k : Stroke) :
    (s.eventSeated h n k).resetHeld = s.resetHeld := by
  rfl

@[simp] theorem State.eventSeated_estop (h : Head) (n : Fin 96) (k : Stroke) :
    (s.eventSeated h n k).estop = s.estop := by
  rfl

@[simp] theorem State.eventSeated_period (h : Head) (n : Fin 96) (k : Stroke) :
    (s.eventSeated h n k).period = s.period := by
  rfl

@[simp] theorem State.eventSeated_fronts (h : Head) (n : Fin 96) (k : Stroke) :
    (s.eventSeated h n k).fronts = s.fronts := by
  rfl

@[simp] theorem State.eventSeated_board (h : Head) (n : Fin 96) (k : Stroke) :
    (s.eventSeated h n k).board = s.board := by
  rfl

@[simp] theorem State.eventSeated_records (h : Head) (n : Fin 96) (k : Stroke) :
    (s.eventSeated h n k).records = s.records := by
  rfl

@[simp] theorem State.eventSeated_library (h : Head) (n : Fin 96) (k : Stroke) :
    (s.eventSeated h n k).library = s.library := by
  rfl

@[simp] theorem State.eventSeated_sites (h : Head) (n : Fin 96) (k : Stroke) :
    (s.eventSeated h n k).sites = s.sites := by
  rfl

@[simp] theorem State.eventSeated_zones (h : Head) (n : Fin 96) (k : Stroke) :
    (s.eventSeated h n k).zones = s.zones := by
  rfl

@[simp] theorem State.eventSeated_queue (h : Head) (n : Fin 96) (k : Stroke) :
    (s.eventSeated h n k).queue = s.queue := by
  rfl

@[simp] theorem State.eventSeated_monitors (h : Head) (n : Fin 96) (k : Stroke) :
    (s.eventSeated h n k).monitors = s.monitors := by
  rfl

@[simp] theorem State.eventSeated_cellLink (h : Head) (n : Fin 96) (k : Stroke) :
    (s.eventSeated h n k).cellLink = s.cellLink := by
  rfl

@[simp] theorem State.eventVerdict_pending (h : Head) (n : Fin 96) (o : StrokeOutcome) (f :
    FailureSet) :
    (s.eventVerdict h n o f).pending = s.pending := by
  rfl

@[simp] theorem State.eventVerdict_clock (h : Head) (n : Fin 96) (o : StrokeOutcome) (f :
    FailureSet) :
    (s.eventVerdict h n o f).clock = s.clock := by
  rfl

@[simp] theorem State.eventVerdict_resetHeld (h : Head) (n : Fin 96) (o : StrokeOutcome) (f :
    FailureSet) :
    (s.eventVerdict h n o f).resetHeld = s.resetHeld := by
  rfl

@[simp] theorem State.eventVerdict_estop (h : Head) (n : Fin 96) (o : StrokeOutcome) (f :
    FailureSet) :
    (s.eventVerdict h n o f).estop = s.estop := by
  rfl

@[simp] theorem State.eventVerdict_period (h : Head) (n : Fin 96) (o : StrokeOutcome) (f :
    FailureSet) :
    (s.eventVerdict h n o f).period = s.period := by
  rfl

@[simp] theorem State.eventVerdict_fronts (h : Head) (n : Fin 96) (o : StrokeOutcome) (f :
    FailureSet) :
    (s.eventVerdict h n o f).fronts = s.fronts := by
  rfl

@[simp] theorem State.eventVerdict_board (h : Head) (n : Fin 96) (o : StrokeOutcome) (f :
    FailureSet) :
    (s.eventVerdict h n o f).board = s.board := by
  rfl

@[simp] theorem State.eventVerdict_records (h : Head) (n : Fin 96) (o : StrokeOutcome) (f :
    FailureSet) :
    (s.eventVerdict h n o f).records = s.records := by
  rfl

@[simp] theorem State.eventVerdict_library (h : Head) (n : Fin 96) (o : StrokeOutcome) (f :
    FailureSet) :
    (s.eventVerdict h n o f).library = s.library := by
  rfl

@[simp] theorem State.eventVerdict_sites (h : Head) (n : Fin 96) (o : StrokeOutcome) (f :
    FailureSet) :
    (s.eventVerdict h n o f).sites = s.sites := by
  rfl

@[simp] theorem State.eventVerdict_zones (h : Head) (n : Fin 96) (o : StrokeOutcome) (f :
    FailureSet) :
    (s.eventVerdict h n o f).zones = s.zones := by
  rfl

@[simp] theorem State.eventVerdict_queue (h : Head) (n : Fin 96) (o : StrokeOutcome) (f :
    FailureSet) :
    (s.eventVerdict h n o f).queue = s.queue := by
  rfl

@[simp] theorem State.eventVerdict_monitors (h : Head) (n : Fin 96) (o : StrokeOutcome) (f :
    FailureSet) :
    (s.eventVerdict h n o f).monitors = s.monitors := by
  rfl

@[simp] theorem State.eventVerdict_cellLink (h : Head) (n : Fin 96) (o : StrokeOutcome) (f :
    FailureSet) :
    (s.eventVerdict h n o f).cellLink = s.cellLink := by
  rfl

@[simp] theorem State.eventAborted_pending (h : Head) (n : Fin 96) (c : Cause) :
    (s.eventAborted h n c).pending = s.pending := by
  rfl

@[simp] theorem State.eventAborted_clock (h : Head) (n : Fin 96) (c : Cause) :
    (s.eventAborted h n c).clock = s.clock := by
  rfl

@[simp] theorem State.eventAborted_resetHeld (h : Head) (n : Fin 96) (c : Cause) :
    (s.eventAborted h n c).resetHeld = s.resetHeld := by
  rfl

@[simp] theorem State.eventAborted_estop (h : Head) (n : Fin 96) (c : Cause) :
    (s.eventAborted h n c).estop = s.estop := by
  rfl

@[simp] theorem State.eventAborted_period (h : Head) (n : Fin 96) (c : Cause) :
    (s.eventAborted h n c).period = s.period := by
  rfl

@[simp] theorem State.eventAborted_fronts (h : Head) (n : Fin 96) (c : Cause) :
    (s.eventAborted h n c).fronts = s.fronts := by
  rfl

@[simp] theorem State.eventAborted_board (h : Head) (n : Fin 96) (c : Cause) :
    (s.eventAborted h n c).board = s.board := by
  rfl

@[simp] theorem State.eventAborted_records (h : Head) (n : Fin 96) (c : Cause) :
    (s.eventAborted h n c).records = s.records := by
  rfl

@[simp] theorem State.eventAborted_library (h : Head) (n : Fin 96) (c : Cause) :
    (s.eventAborted h n c).library = s.library := by
  rfl

@[simp] theorem State.eventAborted_sites (h : Head) (n : Fin 96) (c : Cause) :
    (s.eventAborted h n c).sites = s.sites := by
  rfl

@[simp] theorem State.eventAborted_zones (h : Head) (n : Fin 96) (c : Cause) :
    (s.eventAborted h n c).zones = s.zones := by
  rfl

@[simp] theorem State.eventAborted_queue (h : Head) (n : Fin 96) (c : Cause) :
    (s.eventAborted h n c).queue = s.queue := by
  rfl

@[simp] theorem State.eventAborted_monitors (h : Head) (n : Fin 96) (c : Cause) :
    (s.eventAborted h n c).monitors = s.monitors := by
  rfl

@[simp] theorem State.eventAborted_cellLink (h : Head) (n : Fin 96) (c : Cause) :
    (s.eventAborted h n c).cellLink = s.cellLink := by
  rfl

@[simp] theorem State.returnSite_pending (h : Head) :
    (s.returnSite h).pending = s.pending := by
  unfold State.returnSite
  repeat' split
  all_goals simp

@[simp] theorem State.returnSite_clock (h : Head) :
    (s.returnSite h).clock = s.clock := by
  unfold State.returnSite
  repeat' split
  all_goals simp

@[simp] theorem State.returnSite_resetHeld (h : Head) :
    (s.returnSite h).resetHeld = s.resetHeld := by
  unfold State.returnSite
  repeat' split
  all_goals simp

@[simp] theorem State.returnSite_estop (h : Head) :
    (s.returnSite h).estop = s.estop := by
  unfold State.returnSite
  repeat' split
  all_goals simp

@[simp] theorem State.returnSite_period (h : Head) :
    (s.returnSite h).period = s.period := by
  unfold State.returnSite
  repeat' split
  all_goals simp

@[simp] theorem State.returnSite_fronts (h : Head) :
    (s.returnSite h).fronts = s.fronts := by
  unfold State.returnSite
  repeat' split
  all_goals simp

@[simp] theorem State.returnSite_board (h : Head) :
    (s.returnSite h).board = s.board := by
  unfold State.returnSite
  repeat' split
  all_goals simp

@[simp] theorem State.returnSite_records (h : Head) :
    (s.returnSite h).records = s.records := by
  unfold State.returnSite
  repeat' split
  all_goals simp

@[simp] theorem State.returnSite_library (h : Head) :
    (s.returnSite h).library = s.library := by
  unfold State.returnSite
  repeat' split
  all_goals simp

@[simp] theorem State.returnSite_zones (h : Head) :
    (s.returnSite h).zones = s.zones := by
  unfold State.returnSite
  repeat' split
  all_goals simp

@[simp] theorem State.returnSite_queue (h : Head) :
    (s.returnSite h).queue = s.queue := by
  unfold State.returnSite
  repeat' split
  all_goals simp

@[simp] theorem State.returnSite_monitors (h : Head) :
    (s.returnSite h).monitors = s.monitors := by
  unfold State.returnSite
  repeat' split
  all_goals simp

@[simp] theorem State.returnSite_headLinks (h : Head) :
    (s.returnSite h).headLinks = s.headLinks := by
  unfold State.returnSite
  repeat' split
  all_goals simp

@[simp] theorem State.returnSite_cellLink (h : Head) :
    (s.returnSite h).cellLink = s.cellLink := by
  unfold State.returnSite
  repeat' split
  all_goals simp

@[simp] theorem State.dropEntry_pending (a : Option Head) (r : ClaimReason) (e : QueueEntry) :
    (s.dropEntry a r e).pending = s.pending := by
  unfold State.dropEntry
  simp only
  split <;> simp

@[simp] theorem State.dropEntry_clock (a : Option Head) (r : ClaimReason) (e : QueueEntry) :
    (s.dropEntry a r e).clock = s.clock := by
  unfold State.dropEntry
  simp only
  split <;> simp

@[simp] theorem State.dropEntry_resetHeld (a : Option Head) (r : ClaimReason) (e : QueueEntry) :
    (s.dropEntry a r e).resetHeld = s.resetHeld := by
  unfold State.dropEntry
  simp only
  split <;> simp

@[simp] theorem State.dropEntry_estop (a : Option Head) (r : ClaimReason) (e : QueueEntry) :
    (s.dropEntry a r e).estop = s.estop := by
  unfold State.dropEntry
  simp only
  split <;> simp

@[simp] theorem State.dropEntry_period (a : Option Head) (r : ClaimReason) (e : QueueEntry) :
    (s.dropEntry a r e).period = s.period := by
  unfold State.dropEntry
  simp only
  split <;> simp

@[simp] theorem State.dropEntry_fronts (a : Option Head) (r : ClaimReason) (e : QueueEntry) :
    (s.dropEntry a r e).fronts = s.fronts := by
  unfold State.dropEntry
  simp only
  split <;> simp

@[simp] theorem State.dropEntry_board (a : Option Head) (r : ClaimReason) (e : QueueEntry) :
    (s.dropEntry a r e).board = s.board := by
  unfold State.dropEntry
  simp only
  split <;> simp

@[simp] theorem State.dropEntry_records (a : Option Head) (r : ClaimReason) (e : QueueEntry) :
    (s.dropEntry a r e).records = s.records := by
  unfold State.dropEntry
  simp only
  split <;> simp

@[simp] theorem State.dropEntry_library (a : Option Head) (r : ClaimReason) (e : QueueEntry) :
    (s.dropEntry a r e).library = s.library := by
  unfold State.dropEntry
  simp only
  split <;> simp

@[simp] theorem State.dropEntry_sites (a : Option Head) (r : ClaimReason) (e : QueueEntry) :
    (s.dropEntry a r e).sites = s.sites := by
  unfold State.dropEntry
  simp only
  split <;> simp

@[simp] theorem State.dropEntry_zones (a : Option Head) (r : ClaimReason) (e : QueueEntry) :
    (s.dropEntry a r e).zones = s.zones := by
  unfold State.dropEntry
  simp only
  split <;> simp

@[simp] theorem State.dropAll_pending (a : Option Head) (r : ClaimReason) (es : List QueueEntry) :
    (s.dropAll a r es).pending = s.pending := by
  unfold State.dropAll
  induction es generalizing s with
  | nil => rfl
  | cons e es ih => rw [List.foldl_cons, ih, State.dropEntry_pending]

@[simp] theorem State.dropAll_clock (a : Option Head) (r : ClaimReason) (es : List QueueEntry) :
    (s.dropAll a r es).clock = s.clock := by
  unfold State.dropAll
  induction es generalizing s with
  | nil => rfl
  | cons e es ih => rw [List.foldl_cons, ih, State.dropEntry_clock]

@[simp] theorem State.dropAll_resetHeld (a : Option Head) (r : ClaimReason) (es : List QueueEntry) :
    (s.dropAll a r es).resetHeld = s.resetHeld := by
  unfold State.dropAll
  induction es generalizing s with
  | nil => rfl
  | cons e es ih => rw [List.foldl_cons, ih, State.dropEntry_resetHeld]

@[simp] theorem State.dropAll_estop (a : Option Head) (r : ClaimReason) (es : List QueueEntry) :
    (s.dropAll a r es).estop = s.estop := by
  unfold State.dropAll
  induction es generalizing s with
  | nil => rfl
  | cons e es ih => rw [List.foldl_cons, ih, State.dropEntry_estop]

@[simp] theorem State.dropAll_period (a : Option Head) (r : ClaimReason) (es : List QueueEntry) :
    (s.dropAll a r es).period = s.period := by
  unfold State.dropAll
  induction es generalizing s with
  | nil => rfl
  | cons e es ih => rw [List.foldl_cons, ih, State.dropEntry_period]

@[simp] theorem State.dropAll_fronts (a : Option Head) (r : ClaimReason) (es : List QueueEntry) :
    (s.dropAll a r es).fronts = s.fronts := by
  unfold State.dropAll
  induction es generalizing s with
  | nil => rfl
  | cons e es ih => rw [List.foldl_cons, ih, State.dropEntry_fronts]

@[simp] theorem State.dropAll_board (a : Option Head) (r : ClaimReason) (es : List QueueEntry) :
    (s.dropAll a r es).board = s.board := by
  unfold State.dropAll
  induction es generalizing s with
  | nil => rfl
  | cons e es ih => rw [List.foldl_cons, ih, State.dropEntry_board]

@[simp] theorem State.dropAll_records (a : Option Head) (r : ClaimReason) (es : List QueueEntry) :
    (s.dropAll a r es).records = s.records := by
  unfold State.dropAll
  induction es generalizing s with
  | nil => rfl
  | cons e es ih => rw [List.foldl_cons, ih, State.dropEntry_records]

@[simp] theorem State.dropAll_library (a : Option Head) (r : ClaimReason) (es : List QueueEntry) :
    (s.dropAll a r es).library = s.library := by
  unfold State.dropAll
  induction es generalizing s with
  | nil => rfl
  | cons e es ih => rw [List.foldl_cons, ih, State.dropEntry_library]

@[simp] theorem State.dropAll_sites (a : Option Head) (r : ClaimReason) (es : List QueueEntry) :
    (s.dropAll a r es).sites = s.sites := by
  unfold State.dropAll
  induction es generalizing s with
  | nil => rfl
  | cons e es ih => rw [List.foldl_cons, ih, State.dropEntry_sites]

@[simp] theorem State.dropAll_zones (a : Option Head) (r : ClaimReason) (es : List QueueEntry) :
    (s.dropAll a r es).zones = s.zones := by
  unfold State.dropAll
  induction es generalizing s with
  | nil => rfl
  | cons e es ih => rw [List.foldl_cons, ih, State.dropEntry_zones]

@[simp] theorem State.dropBroken_pending (a : Option Head) (t : Fin 48) :
    (s.dropBroken a t).pending = s.pending := by
  simp [State.dropBroken]

@[simp] theorem State.dropBroken_clock (a : Option Head) (t : Fin 48) :
    (s.dropBroken a t).clock = s.clock := by
  simp [State.dropBroken]

@[simp] theorem State.dropBroken_resetHeld (a : Option Head) (t : Fin 48) :
    (s.dropBroken a t).resetHeld = s.resetHeld := by
  simp [State.dropBroken]

@[simp] theorem State.dropBroken_estop (a : Option Head) (t : Fin 48) :
    (s.dropBroken a t).estop = s.estop := by
  simp [State.dropBroken]

@[simp] theorem State.dropBroken_period (a : Option Head) (t : Fin 48) :
    (s.dropBroken a t).period = s.period := by
  simp [State.dropBroken]

@[simp] theorem State.dropBroken_fronts (a : Option Head) (t : Fin 48) :
    (s.dropBroken a t).fronts = s.fronts := by
  simp [State.dropBroken]

@[simp] theorem State.dropBroken_board (a : Option Head) (t : Fin 48) :
    (s.dropBroken a t).board = s.board := by
  simp [State.dropBroken]

@[simp] theorem State.dropBroken_records (a : Option Head) (t : Fin 48) :
    (s.dropBroken a t).records = s.records := by
  simp [State.dropBroken]

@[simp] theorem State.dropBroken_library (a : Option Head) (t : Fin 48) :
    (s.dropBroken a t).library = s.library := by
  simp [State.dropBroken]

@[simp] theorem State.dropBroken_sites (a : Option Head) (t : Fin 48) :
    (s.dropBroken a t).sites = s.sites := by
  simp [State.dropBroken]

@[simp] theorem State.dropBroken_zones (a : Option Head) (t : Fin 48) :
    (s.dropBroken a t).zones = s.zones := by
  simp [State.dropBroken]

@[simp] theorem State.installType_pending (t : Fin 48) :
    (s.installType t).state.pending = s.pending := by
  unfold State.installType
  simp only
  split <;> simp

@[simp] theorem State.installType_clock (t : Fin 48) :
    (s.installType t).state.clock = s.clock := by
  unfold State.installType
  simp only
  split <;> simp

@[simp] theorem State.installType_resetHeld (t : Fin 48) :
    (s.installType t).state.resetHeld = s.resetHeld := by
  unfold State.installType
  simp only
  split <;> simp

@[simp] theorem State.installType_estop (t : Fin 48) :
    (s.installType t).state.estop = s.estop := by
  unfold State.installType
  simp only
  split <;> simp

@[simp] theorem State.installType_period (t : Fin 48) :
    (s.installType t).state.period = s.period := by
  unfold State.installType
  simp only
  split <;> simp

@[simp] theorem State.installType_fronts (t : Fin 48) :
    (s.installType t).state.fronts = s.fronts := by
  unfold State.installType
  simp only
  split <;> simp

@[simp] theorem State.installType_board (t : Fin 48) :
    (s.installType t).state.board = s.board := by
  unfold State.installType
  simp only
  split <;> simp

@[simp] theorem State.installType_records (t : Fin 48) :
    (s.installType t).state.records = s.records := by
  unfold State.installType
  simp only
  split <;> simp

@[simp] theorem State.installType_sites (t : Fin 48) :
    (s.installType t).state.sites = s.sites := by
  unfold State.installType
  simp only
  split <;> simp

@[simp] theorem State.installType_zones (t : Fin 48) :
    (s.installType t).state.zones = s.zones := by
  unfold State.installType
  simp only
  split <;> simp

@[simp] theorem State.releaseUser_pending (t : Fin 48) :
    (s.releaseUser t).state.pending = s.pending := by
  unfold State.releaseUser
  simp only
  split <;> simp

@[simp] theorem State.releaseUser_clock (t : Fin 48) :
    (s.releaseUser t).state.clock = s.clock := by
  unfold State.releaseUser
  simp only
  split <;> simp

@[simp] theorem State.releaseUser_resetHeld (t : Fin 48) :
    (s.releaseUser t).state.resetHeld = s.resetHeld := by
  unfold State.releaseUser
  simp only
  split <;> simp

@[simp] theorem State.releaseUser_estop (t : Fin 48) :
    (s.releaseUser t).state.estop = s.estop := by
  unfold State.releaseUser
  simp only
  split <;> simp

@[simp] theorem State.releaseUser_period (t : Fin 48) :
    (s.releaseUser t).state.period = s.period := by
  unfold State.releaseUser
  simp only
  split <;> simp

@[simp] theorem State.releaseUser_fronts (t : Fin 48) :
    (s.releaseUser t).state.fronts = s.fronts := by
  unfold State.releaseUser
  simp only
  split <;> simp

@[simp] theorem State.releaseUser_board (t : Fin 48) :
    (s.releaseUser t).state.board = s.board := by
  unfold State.releaseUser
  simp only
  split <;> simp

@[simp] theorem State.releaseUser_records (t : Fin 48) :
    (s.releaseUser t).state.records = s.records := by
  unfold State.releaseUser
  simp only
  split <;> simp

@[simp] theorem State.releaseUser_sites (t : Fin 48) :
    (s.releaseUser t).state.sites = s.sites := by
  unfold State.releaseUser
  simp only
  split <;> simp

@[simp] theorem State.releaseUser_zones (t : Fin 48) :
    (s.releaseUser t).state.zones = s.zones := by
  unfold State.releaseUser
  simp only
  split <;> simp

@[simp] theorem State.releaseUserOf_pending (h : Head) :
    (s.releaseUserOf h).state.pending = s.pending := by
  unfold State.releaseUserOf
  split <;> simp

@[simp] theorem State.releaseUserOf_clock (h : Head) :
    (s.releaseUserOf h).state.clock = s.clock := by
  unfold State.releaseUserOf
  split <;> simp

@[simp] theorem State.releaseUserOf_resetHeld (h : Head) :
    (s.releaseUserOf h).state.resetHeld = s.resetHeld := by
  unfold State.releaseUserOf
  split <;> simp

@[simp] theorem State.releaseUserOf_estop (h : Head) :
    (s.releaseUserOf h).state.estop = s.estop := by
  unfold State.releaseUserOf
  split <;> simp

@[simp] theorem State.releaseUserOf_period (h : Head) :
    (s.releaseUserOf h).state.period = s.period := by
  unfold State.releaseUserOf
  split <;> simp

@[simp] theorem State.releaseUserOf_fronts (h : Head) :
    (s.releaseUserOf h).state.fronts = s.fronts := by
  unfold State.releaseUserOf
  split <;> simp

@[simp] theorem State.releaseUserOf_board (h : Head) :
    (s.releaseUserOf h).state.board = s.board := by
  unfold State.releaseUserOf
  split <;> simp

@[simp] theorem State.releaseUserOf_records (h : Head) :
    (s.releaseUserOf h).state.records = s.records := by
  unfold State.releaseUserOf
  split <;> simp

@[simp] theorem State.releaseUserOf_sites (h : Head) :
    (s.releaseUserOf h).state.sites = s.sites := by
  unfold State.releaseUserOf
  split <;> simp

@[simp] theorem State.releaseUserOf_zones (h : Head) :
    (s.releaseUserOf h).state.zones = s.zones := by
  unfold State.releaseUserOf
  split <;> simp

@[simp] theorem State.endArmed_pending (h : Head) :
    (s.endArmed h).pending = s.pending := by
  simp [State.endArmed]

@[simp] theorem State.endArmed_clock (h : Head) :
    (s.endArmed h).clock = s.clock := by
  simp [State.endArmed]

@[simp] theorem State.endArmed_resetHeld (h : Head) :
    (s.endArmed h).resetHeld = s.resetHeld := by
  simp [State.endArmed]

@[simp] theorem State.endArmed_estop (h : Head) :
    (s.endArmed h).estop = s.estop := by
  simp [State.endArmed]

@[simp] theorem State.endArmed_period (h : Head) :
    (s.endArmed h).period = s.period := by
  simp [State.endArmed]

@[simp] theorem State.endArmed_fronts (h : Head) :
    (s.endArmed h).fronts = s.fronts := by
  simp [State.endArmed]

@[simp] theorem State.endArmed_board (h : Head) :
    (s.endArmed h).board = s.board := by
  simp [State.endArmed]

@[simp] theorem State.endArmed_records (h : Head) :
    (s.endArmed h).records = s.records := by
  simp [State.endArmed]

@[simp] theorem State.revoke_pending (h : Head) (r : ClaimReason) :
    (s.revoke h r).pending = s.pending := by
  unfold State.revoke
  split
  · split <;> simp
  · simp

@[simp] theorem State.revoke_clock (h : Head) (r : ClaimReason) :
    (s.revoke h r).clock = s.clock := by
  unfold State.revoke
  split
  · split <;> simp
  · simp

@[simp] theorem State.revoke_resetHeld (h : Head) (r : ClaimReason) :
    (s.revoke h r).resetHeld = s.resetHeld := by
  unfold State.revoke
  split
  · split <;> simp
  · simp

@[simp] theorem State.revoke_estop (h : Head) (r : ClaimReason) :
    (s.revoke h r).estop = s.estop := by
  unfold State.revoke
  split
  · split <;> simp
  · simp

@[simp] theorem State.revoke_period (h : Head) (r : ClaimReason) :
    (s.revoke h r).period = s.period := by
  unfold State.revoke
  split
  · split <;> simp
  · simp

@[simp] theorem State.revoke_fronts (h : Head) (r : ClaimReason) :
    (s.revoke h r).fronts = s.fronts := by
  unfold State.revoke
  split
  · split <;> simp
  · simp

@[simp] theorem State.revoke_board (h : Head) (r : ClaimReason) :
    (s.revoke h r).board = s.board := by
  unfold State.revoke
  split
  · split <;> simp
  · simp

@[simp] theorem State.revoke_records (h : Head) (r : ClaimReason) :
    (s.revoke h r).records = s.records := by
  unfold State.revoke
  split
  · split <;> simp
  · simp

@[simp] theorem State.grant_pending (e : QueueEntry) (t : Fin 48) (r : TypeRecord) :
    (s.grant e t r).pending = s.pending := by
  simp [State.grant]

@[simp] theorem State.grant_clock (e : QueueEntry) (t : Fin 48) (r : TypeRecord) :
    (s.grant e t r).clock = s.clock := by
  simp [State.grant]

@[simp] theorem State.grant_resetHeld (e : QueueEntry) (t : Fin 48) (r : TypeRecord) :
    (s.grant e t r).resetHeld = s.resetHeld := by
  simp [State.grant]

@[simp] theorem State.grant_estop (e : QueueEntry) (t : Fin 48) (r : TypeRecord) :
    (s.grant e t r).estop = s.estop := by
  simp [State.grant]

@[simp] theorem State.grant_period (e : QueueEntry) (t : Fin 48) (r : TypeRecord) :
    (s.grant e t r).period = s.period := by
  simp [State.grant]

@[simp] theorem State.grant_fronts (e : QueueEntry) (t : Fin 48) (r : TypeRecord) :
    (s.grant e t r).fronts = s.fronts := by
  simp [State.grant]

@[simp] theorem State.grant_board (e : QueueEntry) (t : Fin 48) (r : TypeRecord) :
    (s.grant e t r).board = s.board := by
  simp [State.grant]

@[simp] theorem State.grant_records (e : QueueEntry) (t : Fin 48) (r : TypeRecord) :
    (s.grant e t r).records = s.records := by
  simp [State.grant]

@[simp] theorem State.afterGrant_pending (a : Option Head) (older : List QueueEntry) (n : Fin 96) :
    (s.afterGrant a older n).pending = s.pending := by
  simp [State.afterGrant]

@[simp] theorem State.afterGrant_clock (a : Option Head) (older : List QueueEntry) (n : Fin 96) :
    (s.afterGrant a older n).clock = s.clock := by
  simp [State.afterGrant]

@[simp] theorem State.afterGrant_resetHeld (a : Option Head) (older : List QueueEntry) (n :
    Fin 96) :
    (s.afterGrant a older n).resetHeld = s.resetHeld := by
  simp [State.afterGrant]

@[simp] theorem State.afterGrant_estop (a : Option Head) (older : List QueueEntry) (n : Fin 96) :
    (s.afterGrant a older n).estop = s.estop := by
  simp [State.afterGrant]

@[simp] theorem State.afterGrant_period (a : Option Head) (older : List QueueEntry) (n : Fin 96) :
    (s.afterGrant a older n).period = s.period := by
  simp [State.afterGrant]

@[simp] theorem State.afterGrant_fronts (a : Option Head) (older : List QueueEntry) (n : Fin 96) :
    (s.afterGrant a older n).fronts = s.fronts := by
  simp [State.afterGrant]

@[simp] theorem State.afterGrant_board (a : Option Head) (older : List QueueEntry) (n : Fin 96) :
    (s.afterGrant a older n).board = s.board := by
  simp [State.afterGrant]

@[simp] theorem State.afterGrant_records (a : Option Head) (older : List QueueEntry) (n : Fin 96) :
    (s.afterGrant a older n).records = s.records := by
  simp [State.afterGrant]

@[simp] theorem State.afterGrant_library (a : Option Head) (older : List QueueEntry) (n : Fin 96) :
    (s.afterGrant a older n).library = s.library := by
  simp [State.afterGrant]

@[simp] theorem State.afterGrant_sites (a : Option Head) (older : List QueueEntry) (n : Fin 96) :
    (s.afterGrant a older n).sites = s.sites := by
  simp [State.afterGrant]

@[simp] theorem State.afterGrant_zones (a : Option Head) (older : List QueueEntry) (n : Fin 96) :
    (s.afterGrant a older n).zones = s.zones := by
  simp [State.afterGrant]

@[simp] theorem State.breakType_pending (a : Option Head) (t : Fin 48) :
    (s.breakType a t).pending = s.pending := by
  simp [State.breakType]

@[simp] theorem State.breakType_clock (a : Option Head) (t : Fin 48) :
    (s.breakType a t).clock = s.clock := by
  simp [State.breakType]

@[simp] theorem State.breakType_resetHeld (a : Option Head) (t : Fin 48) :
    (s.breakType a t).resetHeld = s.resetHeld := by
  simp [State.breakType]

@[simp] theorem State.breakType_estop (a : Option Head) (t : Fin 48) :
    (s.breakType a t).estop = s.estop := by
  simp [State.breakType]

@[simp] theorem State.breakType_period (a : Option Head) (t : Fin 48) :
    (s.breakType a t).period = s.period := by
  simp [State.breakType]

@[simp] theorem State.breakType_fronts (a : Option Head) (t : Fin 48) :
    (s.breakType a t).fronts = s.fronts := by
  simp [State.breakType]

@[simp] theorem State.breakType_board (a : Option Head) (t : Fin 48) :
    (s.breakType a t).board = s.board := by
  simp [State.breakType]

@[simp] theorem State.breakType_records (a : Option Head) (t : Fin 48) :
    (s.breakType a t).records = s.records := by
  simp [State.breakType]

@[simp] theorem State.breakType_sites (a : Option Head) (t : Fin 48) :
    (s.breakType a t).sites = s.sites := by
  simp [State.breakType]

@[simp] theorem State.breakType_zones (a : Option Head) (t : Fin 48) :
    (s.breakType a t).zones = s.zones := by
  simp [State.breakType]

@[simp] theorem State.tryGrant_pending (a : Option Head) (e : QueueEntry) (t : Fin 48) :
    (s.tryGrant a e t).pending = s.pending := by
  unfold State.tryGrant
  split <;> simp

@[simp] theorem State.tryGrant_clock (a : Option Head) (e : QueueEntry) (t : Fin 48) :
    (s.tryGrant a e t).clock = s.clock := by
  unfold State.tryGrant
  split <;> simp

@[simp] theorem State.tryGrant_resetHeld (a : Option Head) (e : QueueEntry) (t : Fin 48) :
    (s.tryGrant a e t).resetHeld = s.resetHeld := by
  unfold State.tryGrant
  split <;> simp

@[simp] theorem State.tryGrant_estop (a : Option Head) (e : QueueEntry) (t : Fin 48) :
    (s.tryGrant a e t).estop = s.estop := by
  unfold State.tryGrant
  split <;> simp

@[simp] theorem State.tryGrant_period (a : Option Head) (e : QueueEntry) (t : Fin 48) :
    (s.tryGrant a e t).period = s.period := by
  unfold State.tryGrant
  split <;> simp

@[simp] theorem State.tryGrant_fronts (a : Option Head) (e : QueueEntry) (t : Fin 48) :
    (s.tryGrant a e t).fronts = s.fronts := by
  unfold State.tryGrant
  split <;> simp

@[simp] theorem State.tryGrant_board (a : Option Head) (e : QueueEntry) (t : Fin 48) :
    (s.tryGrant a e t).board = s.board := by
  unfold State.tryGrant
  split <;> simp

@[simp] theorem State.tryGrant_records (a : Option Head) (e : QueueEntry) (t : Fin 48) :
    (s.tryGrant a e t).records = s.records := by
  unfold State.tryGrant
  split <;> simp

@[simp] theorem State.passEntry_pending (a : Option Head) (e : QueueEntry) :
    (s.passEntry a e).pending = s.pending := by
  unfold State.passEntry
  split
  · split
    · split <;> simp
    · rfl
  · simp

@[simp] theorem State.passEntry_clock (a : Option Head) (e : QueueEntry) :
    (s.passEntry a e).clock = s.clock := by
  unfold State.passEntry
  split
  · split
    · split <;> simp
    · rfl
  · simp

@[simp] theorem State.passEntry_resetHeld (a : Option Head) (e : QueueEntry) :
    (s.passEntry a e).resetHeld = s.resetHeld := by
  unfold State.passEntry
  split
  · split
    · split <;> simp
    · rfl
  · simp

@[simp] theorem State.passEntry_estop (a : Option Head) (e : QueueEntry) :
    (s.passEntry a e).estop = s.estop := by
  unfold State.passEntry
  split
  · split
    · split <;> simp
    · rfl
  · simp

@[simp] theorem State.passEntry_period (a : Option Head) (e : QueueEntry) :
    (s.passEntry a e).period = s.period := by
  unfold State.passEntry
  split
  · split
    · split <;> simp
    · rfl
  · simp

@[simp] theorem State.passEntry_fronts (a : Option Head) (e : QueueEntry) :
    (s.passEntry a e).fronts = s.fronts := by
  unfold State.passEntry
  split
  · split
    · split <;> simp
    · rfl
  · simp

@[simp] theorem State.passEntry_board (a : Option Head) (e : QueueEntry) :
    (s.passEntry a e).board = s.board := by
  unfold State.passEntry
  split
  · split
    · split <;> simp
    · rfl
  · simp

@[simp] theorem State.passEntry_records (a : Option Head) (e : QueueEntry) :
    (s.passEntry a e).records = s.records := by
  unfold State.passEntry
  split
  · split
    · split <;> simp
    · rfl
  · simp

@[simp] theorem State.passOver_pending (a : Option Head) (hs : List Head) :
    (State.passOver a hs s).pending = s.pending := by
  induction hs generalizing s with
  | nil => rfl
  | cons h hs ih => unfold State.passOver; split <;> simp [ih]

@[simp] theorem State.passOver_clock (a : Option Head) (hs : List Head) :
    (State.passOver a hs s).clock = s.clock := by
  induction hs generalizing s with
  | nil => rfl
  | cons h hs ih => unfold State.passOver; split <;> simp [ih]

@[simp] theorem State.passOver_resetHeld (a : Option Head) (hs : List Head) :
    (State.passOver a hs s).resetHeld = s.resetHeld := by
  induction hs generalizing s with
  | nil => rfl
  | cons h hs ih => unfold State.passOver; split <;> simp [ih]

@[simp] theorem State.passOver_estop (a : Option Head) (hs : List Head) :
    (State.passOver a hs s).estop = s.estop := by
  induction hs generalizing s with
  | nil => rfl
  | cons h hs ih => unfold State.passOver; split <;> simp [ih]

@[simp] theorem State.passOver_period (a : Option Head) (hs : List Head) :
    (State.passOver a hs s).period = s.period := by
  induction hs generalizing s with
  | nil => rfl
  | cons h hs ih => unfold State.passOver; split <;> simp [ih]

@[simp] theorem State.passOver_fronts (a : Option Head) (hs : List Head) :
    (State.passOver a hs s).fronts = s.fronts := by
  induction hs generalizing s with
  | nil => rfl
  | cons h hs ih => unfold State.passOver; split <;> simp [ih]

@[simp] theorem State.passOver_board (a : Option Head) (hs : List Head) :
    (State.passOver a hs s).board = s.board := by
  induction hs generalizing s with
  | nil => rfl
  | cons h hs ih => unfold State.passOver; split <;> simp [ih]

@[simp] theorem State.passOver_records (a : Option Head) (hs : List Head) :
    (State.passOver a hs s).records = s.records := by
  induction hs generalizing s with
  | nil => rfl
  | cons h hs ih => unfold State.passOver; split <;> simp [ih]

@[simp] theorem State.pass_pending (a : Option Head) :
    (s.pass a).pending = s.pending := by
  simp [State.pass]

@[simp] theorem State.pass_clock (a : Option Head) :
    (s.pass a).clock = s.clock := by
  simp [State.pass]

@[simp] theorem State.pass_resetHeld (a : Option Head) :
    (s.pass a).resetHeld = s.resetHeld := by
  simp [State.pass]

@[simp] theorem State.pass_estop (a : Option Head) :
    (s.pass a).estop = s.estop := by
  simp [State.pass]

@[simp] theorem State.pass_period (a : Option Head) :
    (s.pass a).period = s.period := by
  simp [State.pass]

@[simp] theorem State.pass_fronts (a : Option Head) :
    (s.pass a).fronts = s.fronts := by
  simp [State.pass]

@[simp] theorem State.pass_board (a : Option Head) :
    (s.pass a).board = s.board := by
  simp [State.pass]

@[simp] theorem State.pass_records (a : Option Head) :
    (s.pass a).records = s.records := by
  simp [State.pass]

@[simp] theorem Passing.run_pending (p : Passing) : p.run.pending = p.state.pending := by
  unfold Passing.run; split <;> simp

@[simp] theorem Passing.run_clock (p : Passing) : p.run.clock = p.state.clock := by
  unfold Passing.run; split <;> simp

@[simp] theorem Passing.run_resetHeld (p : Passing) : p.run.resetHeld = p.state.resetHeld := by
  unfold Passing.run; split <;> simp

@[simp] theorem Passing.run_estop (p : Passing) : p.run.estop = p.state.estop := by
  unfold Passing.run; split <;> simp

@[simp] theorem Passing.run_period (p : Passing) : p.run.period = p.state.period := by
  unfold Passing.run; split <;> simp

@[simp] theorem Passing.run_fronts (p : Passing) : p.run.fronts = p.state.fronts := by
  unfold Passing.run; split <;> simp

@[simp] theorem Passing.run_board (p : Passing) : p.run.board = p.state.board := by
  unfold Passing.run; split <;> simp

@[simp] theorem Passing.run_records (p : Passing) : p.run.records = p.state.records := by
  unfold Passing.run; split <;> simp

@[simp] theorem State.abortStroke_pending (h : Head) (c : Cause) (further : List Cause) :
    (s.abortStroke h c further).state.pending = s.pending := by
  unfold State.abortStroke
  simp only
  split <;> simp

@[simp] theorem State.abortStroke_clock (h : Head) (c : Cause) (further : List Cause) :
    (s.abortStroke h c further).state.clock = s.clock := by
  unfold State.abortStroke
  simp only
  split <;> simp

@[simp] theorem State.abortStroke_resetHeld (h : Head) (c : Cause) (further : List Cause) :
    (s.abortStroke h c further).state.resetHeld = s.resetHeld := by
  unfold State.abortStroke
  simp only
  split <;> simp

@[simp] theorem State.abortStroke_estop (h : Head) (c : Cause) (further : List Cause) :
    (s.abortStroke h c further).state.estop = s.estop := by
  unfold State.abortStroke
  simp only
  split <;> simp

@[simp] theorem State.abortStroke_period (h : Head) (c : Cause) (further : List Cause) :
    (s.abortStroke h c further).state.period = s.period := by
  unfold State.abortStroke
  simp only
  split <;> simp

@[simp] theorem State.abortStroke_board (h : Head) (c : Cause) (further : List Cause) :
    (s.abortStroke h c further).state.board = s.board := by
  unfold State.abortStroke
  simp only
  split <;> simp

@[simp] theorem State.abortStroke_records (h : Head) (c : Cause) (further : List Cause) :
    (s.abortStroke h c further).state.records = s.records := by
  unfold State.abortStroke
  simp only
  split <;> simp

@[simp] theorem State.abortStroke_zones (h : Head) (c : Cause) (further : List Cause) :
    (s.abortStroke h c further).state.zones = s.zones := by
  unfold State.abortStroke
  simp only
  split <;> simp

@[simp] theorem State.giveVerdict_pending (h : Head) :
    (s.giveVerdict h).state.pending = s.pending := by
  unfold State.giveVerdict
  simp only
  split <;> simp

@[simp] theorem State.giveVerdict_clock (h : Head) :
    (s.giveVerdict h).state.clock = s.clock := by
  unfold State.giveVerdict
  simp only
  split <;> simp

@[simp] theorem State.giveVerdict_resetHeld (h : Head) :
    (s.giveVerdict h).state.resetHeld = s.resetHeld := by
  unfold State.giveVerdict
  simp only
  split <;> simp

@[simp] theorem State.giveVerdict_estop (h : Head) :
    (s.giveVerdict h).state.estop = s.estop := by
  unfold State.giveVerdict
  simp only
  split <;> simp

@[simp] theorem State.giveVerdict_period (h : Head) :
    (s.giveVerdict h).state.period = s.period := by
  unfold State.giveVerdict
  simp only
  split <;> simp

@[simp] theorem State.giveVerdict_board (h : Head) :
    (s.giveVerdict h).state.board = s.board := by
  unfold State.giveVerdict
  simp only
  split <;> simp

@[simp] theorem State.giveVerdict_zones (h : Head) :
    (s.giveVerdict h).state.zones = s.zones := by
  unfold State.giveVerdict
  simp only
  split <;> simp

@[simp] theorem State.strike_pending (h : Head) (c : Cause) :
    (s.strike h c).state.pending = s.pending := by
  unfold State.strike
  split <;> simp

@[simp] theorem State.strike_clock (h : Head) (c : Cause) :
    (s.strike h c).state.clock = s.clock := by
  unfold State.strike
  split <;> simp

@[simp] theorem State.strike_resetHeld (h : Head) (c : Cause) :
    (s.strike h c).state.resetHeld = s.resetHeld := by
  unfold State.strike
  split <;> simp

@[simp] theorem State.strike_estop (h : Head) (c : Cause) :
    (s.strike h c).state.estop = s.estop := by
  unfold State.strike
  split <;> simp

@[simp] theorem State.strike_period (h : Head) (c : Cause) :
    (s.strike h c).state.period = s.period := by
  unfold State.strike
  split <;> simp

@[simp] theorem State.strike_board (h : Head) (c : Cause) :
    (s.strike h c).state.board = s.board := by
  unfold State.strike
  split <;> simp

@[simp] theorem State.strike_records (h : Head) (c : Cause) :
    (s.strike h c).state.records = s.records := by
  unfold State.strike
  split <;> simp

@[simp] theorem State.strike_zones (h : Head) (c : Cause) :
    (s.strike h c).state.zones = s.zones := by
  unfold State.strike
  split <;> simp

@[simp] theorem State.concludeSample_pending (h : Head) (r : TypeRecord) (restrike : Bool) (p :
    Progress) (q : SampleRecord) :
    (s.concludeSample h r restrike p q).state.pending = s.pending := by
  unfold State.concludeSample
  split
  · simp
  · split <;> simp

@[simp] theorem State.concludeSample_clock (h : Head) (r : TypeRecord) (restrike : Bool) (p :
    Progress) (q : SampleRecord) :
    (s.concludeSample h r restrike p q).state.clock = s.clock := by
  unfold State.concludeSample
  split
  · simp
  · split <;> simp

@[simp] theorem State.concludeSample_resetHeld (h : Head) (r : TypeRecord) (restrike : Bool) (p :
    Progress) (q : SampleRecord) :
    (s.concludeSample h r restrike p q).state.resetHeld = s.resetHeld := by
  unfold State.concludeSample
  split
  · simp
  · split <;> simp

@[simp] theorem State.concludeSample_estop (h : Head) (r : TypeRecord) (restrike : Bool) (p :
    Progress) (q : SampleRecord) :
    (s.concludeSample h r restrike p q).state.estop = s.estop := by
  unfold State.concludeSample
  split
  · simp
  · split <;> simp

@[simp] theorem State.concludeSample_period (h : Head) (r : TypeRecord) (restrike : Bool) (p :
    Progress) (q : SampleRecord) :
    (s.concludeSample h r restrike p q).state.period = s.period := by
  unfold State.concludeSample
  split
  · simp
  · split <;> simp

@[simp] theorem State.concludeSample_board (h : Head) (r : TypeRecord) (restrike : Bool) (p :
    Progress) (q : SampleRecord) :
    (s.concludeSample h r restrike p q).state.board = s.board := by
  unfold State.concludeSample
  split
  · simp
  · split <;> simp

@[simp] theorem State.concludeSample_zones (h : Head) (r : TypeRecord) (restrike : Bool) (p :
    Progress) (q : SampleRecord) :
    (s.concludeSample h r restrike p q).state.zones = s.zones := by
  unfold State.concludeSample
  split
  · simp
  · split <;> simp

@[simp] theorem State.strokeSample_pending (h : Head) (q : SampleRecord) :
    (s.strokeSample h q).state.pending = s.pending := by
  unfold State.strokeSample
  simp only
  split
  · rw [State.concludeSample_pending]
    split <;> split <;> simp
  · rfl

@[simp] theorem State.strokeSample_clock (h : Head) (q : SampleRecord) :
    (s.strokeSample h q).state.clock = s.clock := by
  unfold State.strokeSample
  simp only
  split
  · rw [State.concludeSample_clock]
    split <;> split <;> simp
  · rfl

@[simp] theorem State.strokeSample_resetHeld (h : Head) (q : SampleRecord) :
    (s.strokeSample h q).state.resetHeld = s.resetHeld := by
  unfold State.strokeSample
  simp only
  split
  · rw [State.concludeSample_resetHeld]
    split <;> split <;> simp
  · rfl

@[simp] theorem State.strokeSample_estop (h : Head) (q : SampleRecord) :
    (s.strokeSample h q).state.estop = s.estop := by
  unfold State.strokeSample
  simp only
  split
  · rw [State.concludeSample_estop]
    split <;> split <;> simp
  · rfl

@[simp] theorem State.strokeSample_period (h : Head) (q : SampleRecord) :
    (s.strokeSample h q).state.period = s.period := by
  unfold State.strokeSample
  simp only
  split
  · rw [State.concludeSample_period]
    split <;> split <;> simp
  · rfl

@[simp] theorem State.strokeSample_board (h : Head) (q : SampleRecord) :
    (s.strokeSample h q).state.board = s.board := by
  unfold State.strokeSample
  simp only
  split
  · rw [State.concludeSample_board]
    split <;> split <;> simp
  · rfl

@[simp] theorem State.strokeSample_zones (h : Head) (q : SampleRecord) :
    (s.strokeSample h q).state.zones = s.zones := by
  unfold State.strokeSample
  simp only
  split
  · rw [State.concludeSample_zones]
    split <;> split <;> simp
  · rfl

@[simp] theorem State.haltedSample_pending (h : Head) (q : SampleRecord) :
    (s.haltedSample h q).pending = s.pending := by
  unfold State.haltedSample
  split <;> simp

@[simp] theorem State.haltedSample_clock (h : Head) (q : SampleRecord) :
    (s.haltedSample h q).clock = s.clock := by
  unfold State.haltedSample
  split <;> simp

@[simp] theorem State.haltedSample_resetHeld (h : Head) (q : SampleRecord) :
    (s.haltedSample h q).resetHeld = s.resetHeld := by
  unfold State.haltedSample
  split <;> simp

@[simp] theorem State.haltedSample_estop (h : Head) (q : SampleRecord) :
    (s.haltedSample h q).estop = s.estop := by
  unfold State.haltedSample
  split <;> simp

@[simp] theorem State.haltedSample_period (h : Head) (q : SampleRecord) :
    (s.haltedSample h q).period = s.period := by
  unfold State.haltedSample
  split <;> simp

@[simp] theorem State.haltedSample_fronts (h : Head) (q : SampleRecord) :
    (s.haltedSample h q).fronts = s.fronts := by
  unfold State.haltedSample
  split <;> simp

@[simp] theorem State.haltedSample_board (h : Head) (q : SampleRecord) :
    (s.haltedSample h q).board = s.board := by
  unfold State.haltedSample
  split <;> simp

@[simp] theorem State.haltedSample_records (h : Head) (q : SampleRecord) :
    (s.haltedSample h q).records = s.records := by
  unfold State.haltedSample
  split <;> simp

@[simp] theorem State.haltedSample_library (h : Head) (q : SampleRecord) :
    (s.haltedSample h q).library = s.library := by
  unfold State.haltedSample
  split <;> simp

@[simp] theorem State.haltedSample_sites (h : Head) (q : SampleRecord) :
    (s.haltedSample h q).sites = s.sites := by
  unfold State.haltedSample
  split <;> simp

@[simp] theorem State.haltedSample_zones (h : Head) (q : SampleRecord) :
    (s.haltedSample h q).zones = s.zones := by
  unfold State.haltedSample
  split <;> simp

@[simp] theorem State.haltedSample_queue (h : Head) (q : SampleRecord) :
    (s.haltedSample h q).queue = s.queue := by
  unfold State.haltedSample
  split <;> simp

@[simp] theorem State.haltedSample_headLinks (h : Head) (q : SampleRecord) :
    (s.haltedSample h q).headLinks = s.headLinks := by
  unfold State.haltedSample
  split <;> simp

@[simp] theorem State.haltedSample_cellLink (h : Head) (q : SampleRecord) :
    (s.haltedSample h q).cellLink = s.cellLink := by
  unfold State.haltedSample
  split <;> simp

@[simp] theorem State.takeSample_pending (h : Head) (q : SampleRecord) :
    (s.takeSample h q).state.pending = s.pending := by
  unfold State.takeSample
  split
  · simp
  · split <;> simp

@[simp] theorem State.takeSample_clock (h : Head) (q : SampleRecord) :
    (s.takeSample h q).state.clock = s.clock := by
  unfold State.takeSample
  split
  · simp
  · split <;> simp

@[simp] theorem State.takeSample_resetHeld (h : Head) (q : SampleRecord) :
    (s.takeSample h q).state.resetHeld = s.resetHeld := by
  unfold State.takeSample
  split
  · simp
  · split <;> simp

@[simp] theorem State.takeSample_estop (h : Head) (q : SampleRecord) :
    (s.takeSample h q).state.estop = s.estop := by
  unfold State.takeSample
  split
  · simp
  · split <;> simp

@[simp] theorem State.takeSample_period (h : Head) (q : SampleRecord) :
    (s.takeSample h q).state.period = s.period := by
  unfold State.takeSample
  split
  · simp
  · split <;> simp

@[simp] theorem State.takeSample_board (h : Head) (q : SampleRecord) :
    (s.takeSample h q).state.board = s.board := by
  unfold State.takeSample
  split
  · simp
  · split <;> simp

@[simp] theorem State.takeSample_zones (h : Head) (q : SampleRecord) :
    (s.takeSample h q).state.zones = s.zones := by
  unfold State.takeSample
  split
  · simp
  · split <;> simp

@[simp] theorem State.completeSample_pending (h : Head) (v : PerCorner Conversions) :
    (s.completeSample h v).pending = s.pending := by
  simp [State.completeSample]

@[simp] theorem State.completeSample_clock (h : Head) (v : PerCorner Conversions) :
    (s.completeSample h v).clock = s.clock := by
  simp [State.completeSample]

@[simp] theorem State.completeSample_resetHeld (h : Head) (v : PerCorner Conversions) :
    (s.completeSample h v).resetHeld = s.resetHeld := by
  simp [State.completeSample]

@[simp] theorem State.completeSample_estop (h : Head) (v : PerCorner Conversions) :
    (s.completeSample h v).estop = s.estop := by
  simp [State.completeSample]

@[simp] theorem State.completeSample_period (h : Head) (v : PerCorner Conversions) :
    (s.completeSample h v).period = s.period := by
  simp [State.completeSample]

@[simp] theorem State.completeSample_board (h : Head) (v : PerCorner Conversions) :
    (s.completeSample h v).board = s.board := by
  simp [State.completeSample]

@[simp] theorem State.closeBoard_pending :
    (s.closeBoard).pending = s.pending := by
  rfl

@[simp] theorem State.closeBoard_clock :
    (s.closeBoard).clock = s.clock := by
  rfl

@[simp] theorem State.closeBoard_resetHeld :
    (s.closeBoard).resetHeld = s.resetHeld := by
  rfl

@[simp] theorem State.closeBoard_estop :
    (s.closeBoard).estop = s.estop := by
  rfl

@[simp] theorem State.closeBoard_period :
    (s.closeBoard).period = s.period := by
  rfl

@[simp] theorem State.closeBoard_fronts :
    (s.closeBoard).fronts = s.fronts := by
  rfl

@[simp] theorem State.closeBoard_library :
    (s.closeBoard).library = s.library := by
  rfl

@[simp] theorem State.closeBoard_zones :
    (s.closeBoard).zones = s.zones := by
  rfl

@[simp] theorem State.closeBoard_queue :
    (s.closeBoard).queue = s.queue := by
  rfl

@[simp] theorem State.closeBoard_monitors :
    (s.closeBoard).monitors = s.monitors := by
  rfl

@[simp] theorem State.closeBoard_records :
    (s.closeBoard).records = s.records := by
  rfl

@[simp] theorem State.closeBoard_headLinks :
    (s.closeBoard).headLinks = s.headLinks := by
  rfl

@[simp] theorem State.closeBoard_cellLink :
    (s.closeBoard).cellLink = s.cellLink := by
  rfl

@[simp] theorem State.closeIfAborted_pending :
    (s.closeIfAborted).pending = s.pending := by
  unfold State.closeIfAborted
  split <;> rfl

@[simp] theorem State.closeIfAborted_clock :
    (s.closeIfAborted).clock = s.clock := by
  unfold State.closeIfAborted
  split <;> rfl

@[simp] theorem State.closeIfAborted_resetHeld :
    (s.closeIfAborted).resetHeld = s.resetHeld := by
  unfold State.closeIfAborted
  split <;> rfl

@[simp] theorem State.closeIfAborted_estop :
    (s.closeIfAborted).estop = s.estop := by
  unfold State.closeIfAborted
  split <;> rfl

@[simp] theorem State.closeIfAborted_period :
    (s.closeIfAborted).period = s.period := by
  unfold State.closeIfAborted
  split <;> rfl

@[simp] theorem State.closeIfAborted_fronts :
    (s.closeIfAborted).fronts = s.fronts := by
  unfold State.closeIfAborted
  split <;> rfl

@[simp] theorem State.closeIfAborted_library :
    (s.closeIfAborted).library = s.library := by
  unfold State.closeIfAborted
  split <;> rfl

@[simp] theorem State.closeIfAborted_zones :
    (s.closeIfAborted).zones = s.zones := by
  unfold State.closeIfAborted
  split <;> rfl

@[simp] theorem State.closeIfAborted_queue :
    (s.closeIfAborted).queue = s.queue := by
  unfold State.closeIfAborted
  split <;> rfl

@[simp] theorem State.closeIfAborted_monitors :
    (s.closeIfAborted).monitors = s.monitors := by
  unfold State.closeIfAborted
  split <;> rfl

@[simp] theorem State.closeIfAborted_records :
    (s.closeIfAborted).records = s.records := by
  unfold State.closeIfAborted
  split <;> rfl

@[simp] theorem State.closeIfAborted_headLinks :
    (s.closeIfAborted).headLinks = s.headLinks := by
  unfold State.closeIfAborted
  split <;> rfl

@[simp] theorem State.leaveStroke_pending (h : Head) :
    (s.leaveStroke h).pending = s.pending := by
  simp [State.leaveStroke]

@[simp] theorem State.leaveStroke_clock (h : Head) :
    (s.leaveStroke h).clock = s.clock := by
  simp [State.leaveStroke]

@[simp] theorem State.leaveStroke_resetHeld (h : Head) :
    (s.leaveStroke h).resetHeld = s.resetHeld := by
  simp [State.leaveStroke]

@[simp] theorem State.leaveStroke_estop (h : Head) :
    (s.leaveStroke h).estop = s.estop := by
  simp [State.leaveStroke]

@[simp] theorem State.leaveStroke_period (h : Head) :
    (s.leaveStroke h).period = s.period := by
  simp [State.leaveStroke]

@[simp] theorem State.leaveStroke_fronts (h : Head) :
    (s.leaveStroke h).fronts = s.fronts := by
  simp [State.leaveStroke]

@[simp] theorem State.leaveStroke_records (h : Head) :
    (s.leaveStroke h).records = s.records := by
  simp [State.leaveStroke]

@[simp] theorem State.endHead_pending (r : ClaimReason) (c : Cause) (h : Head) :
    (s.endHead r c h).pending = s.pending := by
  unfold State.endHead
  split <;> simp

@[simp] theorem State.endHead_clock (r : ClaimReason) (c : Cause) (h : Head) :
    (s.endHead r c h).clock = s.clock := by
  unfold State.endHead
  split <;> simp

@[simp] theorem State.endHead_resetHeld (r : ClaimReason) (c : Cause) (h : Head) :
    (s.endHead r c h).resetHeld = s.resetHeld := by
  unfold State.endHead
  split <;> simp

@[simp] theorem State.endHead_estop (r : ClaimReason) (c : Cause) (h : Head) :
    (s.endHead r c h).estop = s.estop := by
  unfold State.endHead
  split <;> simp

@[simp] theorem State.endHead_period (r : ClaimReason) (c : Cause) (h : Head) :
    (s.endHead r c h).period = s.period := by
  unfold State.endHead
  split <;> simp

@[simp] theorem State.endHead_board (r : ClaimReason) (c : Cause) (h : Head) :
    (s.endHead r c h).board = s.board := by
  unfold State.endHead
  split <;> simp

@[simp] theorem State.endHead_records (r : ClaimReason) (c : Cause) (h : Head) :
    (s.endHead r c h).records = s.records := by
  unfold State.endHead
  split <;> simp

@[simp] theorem State.endHeads_pending (r : ClaimReason) (c : Cause) (hs : List Head) :
    (hs.foldl (fun s h => s.endHead r c h) s).pending = s.pending := by
  induction hs generalizing s with
  | nil => rfl
  | cons h hs ih => rw [List.foldl_cons, ih, State.endHead_pending]

@[simp] theorem State.endHeads_clock (r : ClaimReason) (c : Cause) (hs : List Head) :
    (hs.foldl (fun s h => s.endHead r c h) s).clock = s.clock := by
  induction hs generalizing s with
  | nil => rfl
  | cons h hs ih => rw [List.foldl_cons, ih, State.endHead_clock]

@[simp] theorem State.endHeads_resetHeld (r : ClaimReason) (c : Cause) (hs : List Head) :
    (hs.foldl (fun s h => s.endHead r c h) s).resetHeld = s.resetHeld := by
  induction hs generalizing s with
  | nil => rfl
  | cons h hs ih => rw [List.foldl_cons, ih, State.endHead_resetHeld]

@[simp] theorem State.endHeads_estop (r : ClaimReason) (c : Cause) (hs : List Head) :
    (hs.foldl (fun s h => s.endHead r c h) s).estop = s.estop := by
  induction hs generalizing s with
  | nil => rfl
  | cons h hs ih => rw [List.foldl_cons, ih, State.endHead_estop]

@[simp] theorem State.endHeads_period (r : ClaimReason) (c : Cause) (hs : List Head) :
    (hs.foldl (fun s h => s.endHead r c h) s).period = s.period := by
  induction hs generalizing s with
  | nil => rfl
  | cons h hs ih => rw [List.foldl_cons, ih, State.endHead_period]

@[simp] theorem State.endHeads_board (r : ClaimReason) (c : Cause) (hs : List Head) :
    (hs.foldl (fun s h => s.endHead r c h) s).board = s.board := by
  induction hs generalizing s with
  | nil => rfl
  | cons h hs ih => rw [List.foldl_cons, ih, State.endHead_board]

@[simp] theorem State.endHeads_records (r : ClaimReason) (c : Cause) (hs : List Head) :
    (hs.foldl (fun s h => s.endHead r c h) s).records = s.records := by
  induction hs generalizing s with
  | nil => rfl
  | cons h hs ih => rw [List.foldl_cons, ih, State.endHead_records]

@[simp] theorem State.endEverything_pending (r : ClaimReason) (c : Cause) :
    (s.endEverything r c).pending = s.pending := by
  simp [State.endEverything]

@[simp] theorem State.endEverything_clock (r : ClaimReason) (c : Cause) :
    (s.endEverything r c).clock = s.clock := by
  simp [State.endEverything]

@[simp] theorem State.endEverything_resetHeld (r : ClaimReason) (c : Cause) :
    (s.endEverything r c).resetHeld = s.resetHeld := by
  simp [State.endEverything]

@[simp] theorem State.endEverything_estop (r : ClaimReason) (c : Cause) :
    (s.endEverything r c).estop = s.estop := by
  simp [State.endEverything]

@[simp] theorem State.endEverything_period (r : ClaimReason) (c : Cause) :
    (s.endEverything r c).period = s.period := by
  simp [State.endEverything]

@[simp] theorem State.endEverything_board (r : ClaimReason) (c : Cause) :
    (s.endEverything r c).board = s.board := by
  simp [State.endEverything]

@[simp] theorem State.endEverything_records (r : ClaimReason) (c : Cause) :
    (s.endEverything r c).records = s.records := by
  simp [State.endEverything]

@[simp] theorem State.abortBoard_pending :
    (s.abortBoard).pending = s.pending := by
  simp [State.abortBoard]

@[simp] theorem State.abortBoard_clock :
    (s.abortBoard).clock = s.clock := by
  simp [State.abortBoard]

@[simp] theorem State.abortBoard_resetHeld :
    (s.abortBoard).resetHeld = s.resetHeld := by
  simp [State.abortBoard]

@[simp] theorem State.abortBoard_estop :
    (s.abortBoard).estop = s.estop := by
  simp [State.abortBoard]

@[simp] theorem State.abortBoard_period :
    (s.abortBoard).period = s.period := by
  simp [State.abortBoard]

@[simp] theorem State.abortBoard_records :
    (s.abortBoard).records = s.records := by
  simp [State.abortBoard]

@[simp] theorem State.endSiteClaims_pending (n : Fin 96) (h : Option Head) :
    (s.endSiteClaims n h).pending = s.pending := by
  unfold State.endSiteClaims
  cases h <;> simp only <;> split <;> simp

@[simp] theorem State.endSiteClaims_clock (n : Fin 96) (h : Option Head) :
    (s.endSiteClaims n h).clock = s.clock := by
  unfold State.endSiteClaims
  cases h <;> simp only <;> split <;> simp

@[simp] theorem State.endSiteClaims_resetHeld (n : Fin 96) (h : Option Head) :
    (s.endSiteClaims n h).resetHeld = s.resetHeld := by
  unfold State.endSiteClaims
  cases h <;> simp only <;> split <;> simp

@[simp] theorem State.endSiteClaims_estop (n : Fin 96) (h : Option Head) :
    (s.endSiteClaims n h).estop = s.estop := by
  unfold State.endSiteClaims
  cases h <;> simp only <;> split <;> simp

@[simp] theorem State.endSiteClaims_period (n : Fin 96) (h : Option Head) :
    (s.endSiteClaims n h).period = s.period := by
  unfold State.endSiteClaims
  cases h <;> simp only <;> split <;> simp

@[simp] theorem State.endSiteClaims_fronts (n : Fin 96) (h : Option Head) :
    (s.endSiteClaims n h).fronts = s.fronts := by
  unfold State.endSiteClaims
  cases h <;> simp only <;> split <;> simp

@[simp] theorem State.endSiteClaims_board (n : Fin 96) (h : Option Head) :
    (s.endSiteClaims n h).board = s.board := by
  unfold State.endSiteClaims
  cases h <;> simp only <;> split <;> simp

@[simp] theorem State.endSiteClaims_records (n : Fin 96) (h : Option Head) :
    (s.endSiteClaims n h).records = s.records := by
  unfold State.endSiteClaims
  cases h <;> simp only <;> split <;> simp

@[simp] theorem State.placeRecord_pending (t : Fin 48) (r : TypeRecord) :
    (s.placeRecord t r).pending = s.pending := by
  unfold State.placeRecord
  simp only
  split <;> simp

@[simp] theorem State.placeRecord_clock (t : Fin 48) (r : TypeRecord) :
    (s.placeRecord t r).clock = s.clock := by
  unfold State.placeRecord
  simp only
  split <;> simp

@[simp] theorem State.placeRecord_resetHeld (t : Fin 48) (r : TypeRecord) :
    (s.placeRecord t r).resetHeld = s.resetHeld := by
  unfold State.placeRecord
  simp only
  split <;> simp

@[simp] theorem State.placeRecord_estop (t : Fin 48) (r : TypeRecord) :
    (s.placeRecord t r).estop = s.estop := by
  unfold State.placeRecord
  simp only
  split <;> simp

@[simp] theorem State.placeRecord_period (t : Fin 48) (r : TypeRecord) :
    (s.placeRecord t r).period = s.period := by
  unfold State.placeRecord
  simp only
  split <;> simp

@[simp] theorem State.placeRecord_fronts (t : Fin 48) (r : TypeRecord) :
    (s.placeRecord t r).fronts = s.fronts := by
  unfold State.placeRecord
  simp only
  split <;> simp

@[simp] theorem State.placeRecord_board (t : Fin 48) (r : TypeRecord) :
    (s.placeRecord t r).board = s.board := by
  unfold State.placeRecord
  simp only
  split <;> simp

@[simp] theorem State.placeRecord_records (t : Fin 48) (r : TypeRecord) :
    (s.placeRecord t r).records = s.records := by
  unfold State.placeRecord
  simp only
  split <;> simp

@[simp] theorem State.resetHead_pending (h : Head) :
    (s.resetHead h).pending = s.pending := by
  unfold State.resetHead
  split
  · simp
  · split <;> simp

@[simp] theorem State.resetHead_clock (h : Head) :
    (s.resetHead h).clock = s.clock := by
  unfold State.resetHead
  split
  · simp
  · split <;> simp

@[simp] theorem State.resetHead_resetHeld (h : Head) :
    (s.resetHead h).resetHeld = s.resetHeld := by
  unfold State.resetHead
  split
  · simp
  · split <;> simp

@[simp] theorem State.resetHead_estop (h : Head) :
    (s.resetHead h).estop = s.estop := by
  unfold State.resetHead
  split
  · simp
  · split <;> simp

@[simp] theorem State.resetHead_period (h : Head) :
    (s.resetHead h).period = s.period := by
  unfold State.resetHead
  split
  · simp
  · split <;> simp

@[simp] theorem State.resetHead_board (h : Head) :
    (s.resetHead h).board = s.board := by
  unfold State.resetHead
  split
  · simp
  · split <;> simp

@[simp] theorem State.resetHead_records (h : Head) :
    (s.resetHead h).records = s.records := by
  unfold State.resetHead
  split
  · simp
  · split <;> simp

@[simp] theorem State.resetHeads_pending (hs : List Head) :
    (hs.foldl State.resetHead s).pending = s.pending := by
  induction hs generalizing s with
  | nil => rfl
  | cons h hs ih => rw [List.foldl_cons, ih, State.resetHead_pending]

@[simp] theorem State.resetHeads_clock (hs : List Head) :
    (hs.foldl State.resetHead s).clock = s.clock := by
  induction hs generalizing s with
  | nil => rfl
  | cons h hs ih => rw [List.foldl_cons, ih, State.resetHead_clock]

@[simp] theorem State.resetHeads_resetHeld (hs : List Head) :
    (hs.foldl State.resetHead s).resetHeld = s.resetHeld := by
  induction hs generalizing s with
  | nil => rfl
  | cons h hs ih => rw [List.foldl_cons, ih, State.resetHead_resetHeld]

@[simp] theorem State.resetHeads_estop (hs : List Head) :
    (hs.foldl State.resetHead s).estop = s.estop := by
  induction hs generalizing s with
  | nil => rfl
  | cons h hs ih => rw [List.foldl_cons, ih, State.resetHead_estop]

@[simp] theorem State.resetHeads_period (hs : List Head) :
    (hs.foldl State.resetHead s).period = s.period := by
  induction hs generalizing s with
  | nil => rfl
  | cons h hs ih => rw [List.foldl_cons, ih, State.resetHead_period]

@[simp] theorem State.resetHeads_board (hs : List Head) :
    (hs.foldl State.resetHead s).board = s.board := by
  induction hs generalizing s with
  | nil => rfl
  | cons h hs ih => rw [List.foldl_cons, ih, State.resetHead_board]

@[simp] theorem State.resetHeads_records (hs : List Head) :
    (hs.foldl State.resetHead s).records = s.records := by
  induction hs generalizing s with
  | nil => rfl
  | cons h hs ih => rw [List.foldl_cons, ih, State.resetHead_records]

@[simp] theorem State.warmReset_pending :
    (s.warmReset).pending = s.pending := by
  simp [State.warmReset, State.clearSession, State.resetLibrary]

@[simp] theorem State.warmReset_clock :
    (s.warmReset).clock = s.clock := by
  simp [State.warmReset, State.clearSession, State.resetLibrary]

@[simp] theorem State.warmReset_resetHeld :
    (s.warmReset).resetHeld = s.resetHeld := by
  simp [State.warmReset, State.clearSession, State.resetLibrary]

@[simp] theorem State.warmReset_estop :
    (s.warmReset).estop = s.estop := by
  simp [State.warmReset, State.clearSession, State.resetLibrary]

@[simp] theorem State.warmReset_period :
    (s.warmReset).period = s.period := by
  simp [State.warmReset, State.clearSession, State.resetLibrary]

/-! ### Drops -/

/-- All that a drop does: the head's entry leaves, the head is IDLE, and the head is told, except for
LINK_DOWN and for the arrival of its own pass (R80). -/
theorem State.dropEntry_cases (a : Option Head) (r : ClaimReason) (e : QueueEntry) :
    (r = .linkDown ∨ a = some e.head) ∧
        s.dropEntry a r e = (s.leaveQueue e.head).setMonitor e.head .idle ∨
      (r ≠ .linkDown ∧ a ≠ some e.head) ∧
        s.dropEntry a r e = ((s.leaveQueue e.head).setMonitor e.head .idle).offer (.head e.head)
          (eventFrame 65 (u8 e.claim.site.val ++ u8 r.code)) := by
  unfold State.dropEntry
  by_cases h : r = .linkDown ∨ a = some e.head
  · exact .inl ⟨h, by rw [if_pos h]⟩
  · exact .inr ⟨not_or.1 h, by rw [if_neg h]; rfl⟩

@[simp] theorem State.dropEntry_queue (a : Option Head) (r : ClaimReason) (e : QueueEntry) :
    (s.dropEntry a r e).queue = s.queue.filter fun q => !(q.head == e.head) := by
  obtain ⟨-, h⟩ | ⟨-, h⟩ := s.dropEntry_cases a r e <;> rw [h] <;> simp

@[simp] theorem State.dropEntry_monitor (a : Option Head) (r : ClaimReason) (e : QueueEntry)
    (h : Head) :
    (s.dropEntry a r e).monitor h = if h = e.head then Monitor.idle else s.monitor h := by
  obtain ⟨-, he⟩ | ⟨-, he⟩ := s.dropEntry_cases a r e <;> rw [he] <;> simp

theorem State.dropEntry_link (a : Option Head) (r : ClaimReason) (e : QueueEntry) (l : Link)
    (h : l ≠ .head e.head) : (s.dropEntry a r e).link l = s.link l := by
  obtain ⟨-, he⟩ | ⟨-, he⟩ := s.dropEntry_cases a r e <;> rw [he] <;> simp [h]

@[simp] theorem State.dropAll_nil (a : Option Head) (r : ClaimReason) : s.dropAll a r [] = s := rfl

theorem State.dropAll_cons (a : Option Head) (r : ClaimReason) (e : QueueEntry)
    (es : List QueueEntry) : s.dropAll a r (e :: es) = (s.dropEntry a r e).dropAll a r es := rfl

/-- The queue after several drops: the entries of the other heads, in their order (R65). -/
theorem State.dropAll_queue (a : Option Head) (r : ClaimReason) (es : List QueueEntry) :
    (s.dropAll a r es).queue = s.queue.filter fun q => !es.any (·.head == q.head) := by
  induction es generalizing s with
  | nil => simp
  | cons e es ih =>
    rw [State.dropAll_cons, ih, State.dropEntry_queue, List.filter_filter]
    congr 1; funext q
    rw [List.any_cons, Bool.not_or, Bool.and_comm, Bool.beq_comm]

/-- The heads of the entries dropped are IDLE, and no other head changes. -/
theorem State.dropAll_monitor (a : Option Head) (r : ClaimReason) (es : List QueueEntry) (h :
    Head) :
    (s.dropAll a r es).monitor h =
      if es.any (·.head == h) then Monitor.idle else s.monitor h := by
  induction es generalizing s with
  | nil => simp
  | cons e es ih =>
    rw [State.dropAll_cons, ih, State.dropEntry_monitor]
    by_cases h1 : e.head = h
    · subst h1; simp
    · have h2 : h ≠ e.head := fun x => h1 x.symm
      simp [h1, h2]

/-- The links of the other heads do not change. -/
theorem State.dropAll_link (a : Option Head) (r : ClaimReason) (es : List QueueEntry) (l : Link)
    (h : ∀ e ∈ es, l ≠ .head e.head) : (s.dropAll a r es).link l = s.link l := by
  induction es generalizing s with
  | nil => rfl
  | cons e es ih =>
    rw [State.dropAll_cons, ih (fun x hx => h x (List.mem_cons_of_mem _ hx)),
      State.dropEntry_link _ _ _ _ (h e List.mem_cons_self)]

/-- Every waiting claim dropped at once leaves an empty queue. -/
@[simp] theorem State.dropAll_all_queue (a : Option Head) (r : ClaimReason) :
    (s.dropAll a r s.queue).queue = [] := by
  rw [State.dropAll_queue, List.filter_eq_nil_iff]
  intro q hq
  simp only [Bool.not_eq_true, Bool.not_eq_false']
  exact List.any_eq_true.2 ⟨q, hq, by simp⟩

/-! ### The pass -/

/-- All that the pass does with one entry (R70): dropped where its site no longer meets its claim,
left where it is not grantable, and otherwise granted, or found BROKEN by the read (R73, R74). -/
theorem State.passEntry_cases (a : Option Head) (e : QueueEntry) :
    (s.meets e.claim = false ∧ s.passEntry a e = s.dropEntry a .siteChanged e) ∨
    (s.meets e.claim = true ∧ s.grantable e = false ∧ s.passEntry a e = s) ∨
    (∃ t, s.meets e.claim = true ∧ s.grantable e = true ∧ s.typeAt e.claim.site = some t ∧
      (s.typeSlot t).state = .ready ∧
      ((∃ r, (s.typeSlot t).read = some r ∧ s.passEntry a e =
          (s.grant e t r).afterGrant a (s.olderThan e.head) e.claim.site) ∨
        ((s.typeSlot t).read = none ∧ s.passEntry a e = s.breakType a t))) := by
  unfold State.passEntry
  cases hm : s.meets e.claim with
  | false => exact .inl ⟨rfl, by simp⟩
  | true =>
    cases hg : s.grantable e with
    | false => exact .inr (.inl ⟨rfl, rfl, by simp⟩)
    | true =>
      have hst : s.typeStateAt e.claim.site = some .ready := by
        simp only [State.grantable, Bool.and_eq_true, beq_iff_eq] at hg
        exact hg.1.1.1.2
      obtain ⟨t, ht, hr⟩ := Option.map_eq_some_iff.1 hst
      refine .inr (.inr ⟨t, rfl, rfl, ht, hr, ?_⟩)
      simp only [ht, if_true, State.tryGrant]
      cases hd : (s.typeSlot t).read with
      | none => exact .inr ⟨rfl, rfl⟩
      | some r => exact .inl ⟨r, rfl, rfl⟩

/-- A pass over an empty queue changes nothing. -/
theorem State.pass_of_nil (a : Option Head) (h : s.queue = []) : s.pass a = s := by
  unfold State.pass; rw [h]; rfl

/-- What holds of a state, and is kept by each entry the pass takes, holds after the pass. -/
theorem State.pass_induct {p : State → Prop} (a : Option Head)
    (hp : ∀ u e, e ∈ u.queue → p u → p (u.passEntry a e)) (hs : p s) : p (s.pass a) := by
  have key : ∀ (hs : List Head) (u : State), p u → p (State.passOver a hs u) := by
    intro hs
    induction hs with
    | nil => exact fun u hu => hu
    | cons h hs ih =>
      intro u hu
      unfold State.passOver
      split
      · rename_i e he
        exact ih _ (hp u e (List.mem_of_find?_eq_some he) hu)
      · exact ih _ hu
  exact key _ _ hs

/-- What holds of a state, and is kept by the pass, holds after a pass that may be due. -/
theorem Passing.run_induct {p : State → Prop} {q : Passing}
    (hp : p q.state → p (q.state.pass none)) (hq : p q.state) : p q.run := by
  unfold Passing.run; split
  · exact hp hq
  · exact hq

end Sys2Proof.Machine
end

