-- ==== Sys2Proof/Laws/Invariants.lean ====
section
/-! SUPPORT. The words of the laws in Safety.lean read off the fields of a state. -/

namespace Sys2Proof.Machine

theorem mem_allHeads (h : Head) : h ∈ allHeads := by cases h <;> decide

/-- A site is CLAIMED by a head, read off its entry. -/
theorem State.claimedBy_iff (s : State) (n : Fin 96) (h : Head) :
    s.claimedBy n h ↔ ∃ g, (s.site n).map (·.state) = some (.claimed h g) := by
  unfold State.claimedBy
  constructor
  · rintro ⟨e, g, he, hs⟩
    exact ⟨g, by rw [he, Option.map_some, hs]⟩
  · rintro ⟨g, hg⟩
    obtain ⟨e, he, hs⟩ := Option.map_eq_some_iff.1 hg
    exact ⟨e, g, he, hs⟩

/-- A site is PRESSING under a head, read off its entry. -/
theorem State.pressedBy_iff (s : State) (n : Fin 96) (h : Head) :
    s.pressedBy n h ↔ ∃ g, (s.site n).map (·.state) = some (.pressing h g) := by
  unfold State.pressedBy
  constructor
  · rintro ⟨e, g, he, hs⟩
    exact ⟨g, by rw [he, Option.map_some, hs]⟩
  · rintro ⟨g, hg⟩
    obtain ⟨e, he, hs⟩ := Option.map_eq_some_iff.1 hg
    exact ⟨e, g, he, hs⟩

/-- A head's granted claim is on a site, read off its monitor. -/
theorem State.claims_iff (s : State) (h : Head) (n : Fin 96) :
    s.claims h n ↔ (s.monitor h).claim.map (·.site) = some n := by
  unfold State.claims
  rw [Option.map_eq_some_iff]

/-- Two heads do not claim one site. -/
theorem State.claimedBy_unique {s : State} {n : Fin 96} {h h' : Head} (a : s.claimedBy n h)
    (b : s.claimedBy n h') : h = h' := by
  obtain ⟨e, g, he, hs⟩ := a
  obtain ⟨e', g', he', hs'⟩ := b
  rw [he] at he'; cases he'
  rw [hs] at hs'; cases hs'; rfl

/-- Two heads do not press one site. -/
theorem State.pressedBy_unique {s : State} {n : Fin 96} {h h' : Head} (a : s.pressedBy n h)
    (b : s.pressedBy n h') : h = h' := by
  obtain ⟨e, g, he, hs⟩ := a
  obtain ⟨e', g', he', hs'⟩ := b
  rw [he] at he'; cases he'
  rw [hs] at hs'; cases hs'; rfl

/-- A site is not CLAIMED and PRESSING at once. -/
theorem State.claimedBy_not_pressedBy {s : State} {n : Fin 96} {h h' : Head} (a : s.claimedBy n h) :
    ¬ s.pressedBy n h' := by
  rintro ⟨e', g', he', hs'⟩
  obtain ⟨e, g, he, hs⟩ := a
  rw [he] at he'; cases he'
  rw [hs] at hs'; cases hs'

/-- A head is armed or in a stroke state, or neither. -/
theorem HeadState.active_iff (st : HeadState) :
    st.active = true ↔ st = .armed ∨ st.inStroke = true := by
  cases st <;> decide

/-- A stroke state is one of three. -/
theorem HeadState.inStroke_iff (st : HeadState) :
    st.inStroke = true ↔ st = .approach ∨ st = .engage ∨ st = .seating := by
  cases st <;> decide

/-- HALTED or RETRACT. -/
theorem HeadState.unacknowledged_iff (st : HeadState) :
    st.unacknowledged = true ↔ st = .retract ∨ st = .halted := by
  cases st <;> decide

end Sys2Proof.Machine
end

