-- ==== Sys2Proof/Laws/Stamp.lean ====
section
/-! SUPPORT. A frame that waits in an output queue has no effect but to fill its place: every operation
commutes with exchanging such a frame for another (`State.stamp`). So a request taken with its reply
already in place gives what `State.take` gives (`State.take_eq`). -/

namespace Sys2Proof.Machine

/-- The state with the frame at a place of a link's output queue exchanged. -/
def State.stamp (s : State) (l : Link) (i : Nat) (r : OutFrame) : State :=
  s.setLink l { s.link l with out := (s.link l).out.set i r }

/-- A frame waits at a place of a link's output queue. -/
def State.holds (s : State) (l : Link) (i : Nat) : Prop := i < (s.link l).out.length

variable (s : State) (l : Link) (i : Nat) (r : OutFrame)

/-! ### What a stamped state reads -/

@[simp] theorem State.stamp_pending : (s.stamp l i r).pending = s.pending := by cases l <;> rfl

@[simp] theorem State.stamp_clock : (s.stamp l i r).clock = s.clock := by cases l <;> rfl

@[simp] theorem State.stamp_resetHeld :
    (s.stamp l i r).resetHeld = s.resetHeld := by cases l <;> rfl

@[simp] theorem State.stamp_estop : (s.stamp l i r).estop = s.estop := by cases l <;> rfl

@[simp] theorem State.stamp_period : (s.stamp l i r).period = s.period := by cases l <;> rfl

@[simp] theorem State.stamp_fronts : (s.stamp l i r).fronts = s.fronts := by cases l <;> rfl

@[simp] theorem State.stamp_library : (s.stamp l i r).library = s.library := by cases l <;> rfl

@[simp] theorem State.stamp_board : (s.stamp l i r).board = s.board := by cases l <;> rfl

@[simp] theorem State.stamp_sites : (s.stamp l i r).sites = s.sites := by cases l <;> rfl

@[simp] theorem State.stamp_zones : (s.stamp l i r).zones = s.zones := by cases l <;> rfl

@[simp] theorem State.stamp_queue : (s.stamp l i r).queue = s.queue := by cases l <;> rfl

@[simp] theorem State.stamp_monitors : (s.stamp l i r).monitors = s.monitors := by cases l <;> rfl

@[simp] theorem State.stamp_records : (s.stamp l i r).records = s.records := by cases l <;> rfl

@[simp] theorem State.stamp_front (h : Head) : (s.stamp l i r).front h = s.front h := by
  cases l <;> rfl

@[simp] theorem State.stamp_monitor (h : Head) : (s.stamp l i r).monitor h = s.monitor h := by
  cases l <;> rfl

@[simp] theorem State.stamp_typeSlot (t : Fin 48) : (s.stamp l i r).typeSlot t = s.typeSlot t := by
  cases l <;> rfl

@[simp] theorem State.stamp_site (n : Fin 96) : (s.stamp l i r).site n = s.site n := by
  cases l <;> rfl

@[simp] theorem State.stamp_holder (z : Fin 32) : (s.stamp l i r).holder z = s.holder z := by
  cases l <;> rfl

@[simp] theorem State.stamp_permitOut (h : Head) : (s.stamp l i r).permitOut h = s.permitOut h := by
  cases l <;> rfl

@[simp] theorem State.stamp_attn : (s.stamp l i r).attn = s.attn := by
  cases l <;> rfl

@[simp] theorem State.stamp_reserved : (s.stamp l i r).reserved = s.reserved := by
  cases l <;> rfl

@[simp] theorem State.stamp_slotFree : (s.stamp l i r).slotFree = s.slotFree := by
  cases l <;> rfl

@[simp] theorem State.stamp_zonesHeld (h : Head) : (s.stamp l i r).zonesHeld h = s.zonesHeld h := by
  cases l <;> rfl

@[simp] theorem State.stamp_pendingCount : (s.stamp l i r).pendingCount = s.pendingCount := by
  cases l <;> rfl

@[simp] theorem State.stamp_someUnacknowledged :
    (s.stamp l i r).someUnacknowledged = s.someUnacknowledged := by
  cases l <;> rfl

@[simp] theorem State.stamp_entryOf (h : Head) : (s.stamp l i r).entryOf h = s.entryOf h := by
  cases l <;> rfl

@[simp] theorem State.stamp_claimOf (h : Head) : (s.stamp l i r).claimOf h = s.claimOf h := by
  cases l <;> rfl

@[simp] theorem State.stamp_queuePosition (h : Head) :
    (s.stamp l i r).queuePosition h = s.queuePosition h := by
  cases l <;> rfl

@[simp] theorem State.stamp_meets (c : Claim) : (s.stamp l i r).meets c = s.meets c := by
  cases l <;> rfl

@[simp] theorem State.stamp_typeAt (n : Fin 96) : (s.stamp l i r).typeAt n = s.typeAt n := by
  cases l <;> rfl

@[simp] theorem State.stamp_typeStateAt (n : Fin 96) :
    (s.stamp l i r).typeStateAt n = s.typeStateAt n := by
  cases l <;> rfl

@[simp] theorem State.stamp_keepOut (n : Fin 96) : (s.stamp l i r).keepOut n = s.keepOut n := by
  cases l <;> rfl

@[simp] theorem State.stamp_typeNamed (t : Fin 48) :
    (s.stamp l i r).typeNamed t = s.typeNamed t := by
  cases l <;> rfl

@[simp] theorem State.stamp_countSites (p : SiteEntry → Bool) :
    (s.stamp l i r).countSites p = s.countSites p := by
  cases l <;> rfl

@[simp] theorem State.stamp_waitingOnType (t : Fin 48) :
    (s.stamp l i r).waitingOnType t = s.waitingOnType t := by
  cases l <;> rfl

@[simp] theorem State.stamp_waitingOnSite (n : Fin 96) :
    (s.stamp l i r).waitingOnSite n = s.waitingOnSite n := by
  cases l <;> rfl

@[simp] theorem State.stamp_olderThan (h : Head) : (s.stamp l i r).olderThan h = s.olderThan h := by
  cases l <;> rfl

@[simp] theorem State.stamp_blocked (e : QueueEntry) : (s.stamp l i r).blocked e = s.blocked e := by
  cases l <;> rfl

@[simp] theorem State.stamp_zonesFree (n : Fin 96) :
    (s.stamp l i r).zonesFree n = s.zonesFree n := by
  cases l <;> rfl

@[simp] theorem State.stamp_grantable (e : QueueEntry) :
    (s.stamp l i r).grantable e = s.grantable e := by
  cases l <;> rfl

@[simp] theorem State.stamp_missing (h : Head) (c : Claim) :
    (s.stamp l i r).missing h c = s.missing h c := by
  cases l <;> rfl

@[simp] theorem State.stamp_definable (n : Fin 96) :
    (s.stamp l i r).definable n = s.definable n := by
  cases l <;> rfl

theorem State.stamp_link (j : Link) :
    (s.stamp l i r).link j =
      if j = l then { s.link l with out := (s.link l).out.set i r } else s.link j := by
  simp [State.stamp]

@[simp] theorem State.stamp_up (j : Link) : ((s.stamp l i r).link j).up = (s.link j).up := by
  rw [State.stamp_link]; split
  · subst j; rfl
  · rfl

/-! ### Operations that queue no frame -/

theorem State.stamp_withZones (v : Vector (Option Head) 32) :
    { s.stamp l i r with zones := v } = ({ s with zones := v }).stamp l i r := by cases l <;> rfl

@[simp] theorem State.stamp_withLibrary (v : Vector TypeSlot 48) :
    { s.stamp l i r with library := v } = ({ s with library := v }).stamp l i r := by
  cases l <;> rfl

@[simp] theorem State.stamp_setFront (h : Head) (f : FrontEnd) :
    (s.stamp l i r).setFront h f = (s.setFront h f).stamp l i r := by
  cases l <;> rfl

@[simp] theorem State.holds_setFront (h : Head) (f : FrontEnd) :
    (s.setFront h f).holds l i ↔ s.holds l i := by
  cases l <;> simp only [State.holds, State.link, State.setFront]

@[simp] theorem State.stamp_setMonitor (h : Head) (m : Monitor) :
    (s.stamp l i r).setMonitor h m = (s.setMonitor h m).stamp l i r := by
  cases l <;> rfl

@[simp] theorem State.holds_setMonitor (h : Head) (m : Monitor) :
    (s.setMonitor h m).holds l i ↔ s.holds l i := by
  cases l <;> simp only [State.holds, State.link, State.setMonitor]

@[simp] theorem State.stamp_setType (t : Fin 48) (slot : TypeSlot) :
    (s.stamp l i r).setType t slot = (s.setType t slot).stamp l i r := by
  cases l <;> rfl

@[simp] theorem State.holds_setType (t : Fin 48) (slot : TypeSlot) :
    (s.setType t slot).holds l i ↔ s.holds l i := by
  cases l <;> simp only [State.holds, State.link, State.setType]

@[simp] theorem State.stamp_setSite (n : Fin 96) (e : Option SiteEntry) :
    (s.stamp l i r).setSite n e = (s.setSite n e).stamp l i r := by
  cases l <;> rfl

@[simp] theorem State.holds_setSite (n : Fin 96) (e : Option SiteEntry) :
    (s.setSite n e).holds l i ↔ s.holds l i := by
  cases l <;> simp only [State.holds, State.link, State.setSite]

@[simp] theorem State.stamp_leaveQueue (h : Head) :
    (s.stamp l i r).leaveQueue h = (s.leaveQueue h).stamp l i r := by
  cases l <;> rfl

@[simp] theorem State.holds_leaveQueue (h : Head) : (s.leaveQueue h).holds l i ↔ s.holds l i := by
  cases l <;> simp only [State.holds, State.link, State.leaveQueue]

@[simp] theorem State.stamp_freeZones (h : Head) :
    (s.stamp l i r).freeZones h = (s.freeZones h).stamp l i r := by
  unfold State.freeZones; simp only [State.stamp_holder]; exact State.stamp_withZones ..

@[simp] theorem State.holds_freeZones (h : Head) : (s.freeZones h).holds l i ↔ s.holds l i := by
  cases l <;> simp only [State.holds, State.link, State.freeZones]

@[simp] theorem State.stamp_takeZones (h : Head) (zs : List (Fin 32)) :
    (s.stamp l i r).takeZones h zs = (s.takeZones h zs).stamp l i r := by
  unfold State.takeZones; simp only [State.stamp_holder]; exact State.stamp_withZones ..

@[simp] theorem State.holds_takeZones (h : Head) (zs : List (Fin 32)) :
    (s.takeZones h zs).holds l i ↔ s.holds l i := by
  cases l <;> simp only [State.holds, State.link, State.takeZones]

@[simp] theorem State.stamp_toIdle (h : Head) :
    (s.stamp l i r).toIdle h = (s.toIdle h).stamp l i r := by
  cases l <;> rfl

@[simp] theorem State.holds_toIdle (h : Head) : (s.toIdle h).holds l i ↔ s.holds l i := by
  cases l <;> exact Iff.rfl

@[simp] theorem State.stamp_changeSite (n : Fin 96) (g : SiteEntry → SiteEntry) :
    (s.stamp l i r).changeSite n g = (s.changeSite n g).stamp l i r := by
  cases l <;> rfl

@[simp] theorem State.holds_changeSite (n : Fin 96) (g : SiteEntry → SiteEntry) :
    (s.changeSite n g).holds l i ↔ s.holds l i := by
  cases l <;> exact Iff.rfl

@[simp] theorem State.stamp_returnSite (h : Head) :
    (s.stamp l i r).returnSite h = (s.returnSite h).stamp l i r := by
  unfold State.returnSite; simp only [State.stamp_monitor]; split <;> [exact State.stamp_changeSite ..; rfl]

@[simp] theorem State.holds_returnSite (h : Head) : (s.returnSite h).holds l i ↔ s.holds l i := by
  unfold State.returnSite; split <;> exact Iff.rfl

@[simp] theorem State.stamp_raiseBypass (older : List QueueEntry) (n : Fin 96) :
    (s.stamp l i r).raiseBypass older n = (s.raiseBypass older n).stamp l i r := by
  unfold State.raiseBypass; simp only [State.stamp_keepOut, State.stamp_queue]; cases l <;> rfl

@[simp] theorem State.holds_raiseBypass (older : List QueueEntry) (n : Fin 96) :
    (s.raiseBypass older n).holds l i ↔ s.holds l i := by
  cases l <;> simp only [State.holds, State.link, State.raiseBypass]

@[simp] theorem State.stamp_appendRecord (q : PressRecord) :
    (s.stamp l i r).appendRecord q = (s.appendRecord q).stamp l i r := by
  cases l <;> rfl

@[simp] theorem State.holds_appendRecord (q : PressRecord) :
    (s.appendRecord q).holds l i ↔ s.holds l i := by
  cases l <;> simp only [State.holds, State.link, State.appendRecord]

@[simp] theorem State.stamp_appendDue (q : Option PressRecord) :
    (s.stamp l i r).appendDue q = (s.appendDue q).stamp l i r := by
  unfold State.appendDue; split <;> [exact State.stamp_appendRecord ..; rfl]

@[simp] theorem State.holds_appendDue (q : Option PressRecord) :
    (s.appendDue q).holds l i ↔ s.holds l i := by
  unfold State.appendDue; split <;> exact Iff.rfl

@[simp] theorem State.stamp_closeBoard :
    (s.stamp l i r).closeBoard = (s.closeBoard).stamp l i r := by
  cases l <;> rfl

@[simp] theorem State.holds_closeBoard : (s.closeBoard).holds l i ↔ s.holds l i := by
  cases l <;> simp only [State.holds, State.link, State.closeBoard]

@[simp] theorem State.stamp_joinQueue (h : Head) (c : Claim) :
    (s.stamp l i r).joinQueue h c = (s.joinQueue h c).stamp l i r := by
  cases l <;> rfl

@[simp] theorem State.holds_joinQueue (h : Head) (c : Claim) :
    (s.joinQueue h c).holds l i ↔ s.holds l i := by
  cases l <;> simp only [State.holds, State.link, State.joinQueue]

@[simp] theorem State.stamp_startStroke (h : Head) (c : Claim) (w : WorkingCopy) :
    (s.stamp l i r).startStroke h c w = (s.startStroke h c w).stamp l i r := by
  cases l <;> rfl

@[simp] theorem State.holds_startStroke (h : Head) (c : Claim) (w : WorkingCopy) :
    (s.startStroke h c w).holds l i ↔ s.holds l i := by
  cases l <;> exact Iff.rfl

@[simp] theorem State.stamp_setPeriod (p : Period) :
    (s.stamp l i r).setPeriod p = (s.setPeriod p).stamp l i r := by
  unfold State.setPeriod; simp only [State.stamp_period]; split <;> [rfl; cases l <;> rfl]

@[simp] theorem State.holds_setPeriod (p : Period) : (s.setPeriod p).holds l i ↔ s.holds l i := by
  unfold State.setPeriod; split <;> exact Iff.rfl

@[simp] theorem State.stamp_resetLibrary :
    (s.stamp l i r).resetLibrary = (s.resetLibrary).stamp l i r := by
  unfold State.resetLibrary; simp only [State.stamp_typeSlot]; exact State.stamp_withLibrary ..

@[simp] theorem State.holds_resetLibrary : (s.resetLibrary).holds l i ↔ s.holds l i := by
  cases l <;> simp only [State.holds, State.link, State.resetLibrary]

@[simp] theorem State.stamp_clearSession :
    (s.stamp l i r).clearSession = (s.clearSession).stamp l i r := by
  cases l <;> rfl

@[simp] theorem State.holds_clearSession : (s.clearSession).holds l i ↔ s.holds l i := by
  cases l <;> simp only [State.holds, State.link, State.clearSession]

@[simp] theorem State.stamp_openBoard (n : BitVec 32) (b k : Nat) (p : Period) :
    (s.stamp l i r).openBoard n b k p = (s.openBoard n b k p).stamp l i r := by
  unfold State.openBoard; rw [State.stamp_setPeriod]; generalize s.setPeriod p = u; cases l <;> rfl

@[simp] theorem State.holds_openBoard (n : BitVec 32) (b k : Nat) (p : Period) :
    (s.openBoard n b k p).holds l i ↔ s.holds l i := (s.holds_setPeriod l i p)

@[simp] theorem State.stamp_withQueue (q : List QueueEntry) :
    { s.stamp l i r with queue := q } = ({ s with queue := q }).stamp l i r := by cases l <;> rfl

@[simp] theorem State.stamp_withBoard (b : Board) :
    { s.stamp l i r with board := b } = ({ s with board := b }).stamp l i r := by cases l <;> rfl

@[simp] theorem State.stamp_withRecords (q : List PressRecord) :
    { s.stamp l i r with records := q } = ({ s with records := q }).stamp l i r := by
  cases l <;> rfl

/-! ### Offered frames -/

variable {s l i}

theorem LinkState.offer_set (k : LinkState) (f : OutFrame) (hi : i < k.out.length) :
    ({ k with out := k.out.set i r } : LinkState).offer f =
      { k.offer f with out := (k.offer f).out.set i r } := by
  unfold LinkState.offer
  simp only [List.length_set]
  split
  · split
    · simp [List.set_append_left _ _ hi]
    · rfl
  · rfl

theorem LinkState.length_le_offer (k : LinkState) (f : OutFrame) :
    k.out.length ≤ (k.offer f).out.length := by
  unfold LinkState.offer; split <;> [split; skip] <;> simp

theorem State.holds_offer (j : Link) (f : OutFrame) (hi : s.holds l i) :
    (s.offer j f).holds l i := by
  unfold State.holds at *
  rw [State.offer_link]; split
  · subst l; exact lt_of_lt_of_le hi (LinkState.length_le_offer ..)
  · exact hi

theorem State.stamp_offer (j : Link) (f : OutFrame) (hi : s.holds l i) :
    (s.stamp l i r).offer j f = (s.offer j f).stamp l i r := by
  by_cases h : j = l
  · subst h
    simp only [State.offer, State.stamp, State.setLink_link, if_pos, State.setLink_setLink]
    rw [LinkState.offer_set _ _ _ hi]
  · have hc : ∀ (a b : LinkState), (s.setLink l a).setLink j b = (s.setLink j b).setLink l a := by
      intro a b
      cases l <;> cases j
      · rename_i x y
        have : x ≠ y := fun e => h (by rw [e])
        simp only [State.setLink]; rw [PerHead.set_comm _ _ _ this]
      · rfl
      · rfl
      · exact absurd rfl h
    simp only [State.offer, State.stamp, State.setLink_link, if_neg h, hc, if_neg (Ne.symm h)]

theorem State.holds_event (h : Head) (kind : Byte) (bytes : List Byte) (hi : s.holds l i) :
    (s.event h kind bytes).holds l i := State.holds_offer _ _ hi

theorem State.stamp_event (h : Head) (kind : Byte) (bytes : List Byte) (hi : s.holds l i) :
    (s.stamp l i r).event h kind bytes = (s.event h kind bytes).stamp l i r :=
  State.stamp_offer _ _ _ hi

/-! ### The operations of the blocks, each once -/

theorem State.holds_eventGranted (h : Head) (c : Claim) (w : WorkingCopy) (hi : s.holds l i) :
    (s.eventGranted h c w).holds l i := by
  exact State.holds_event _ _ _ hi

theorem State.stamp_eventGranted (h : Head) (c : Claim) (w : WorkingCopy) (hi : s.holds l i) :
    (s.stamp l i r).eventGranted h c w = (s.eventGranted h c w).stamp l i r := by
  unfold State.eventGranted; rw [State.stamp_board]; exact State.stamp_event _ _ _ _ hi

theorem State.holds_dropEntry (a : Option Head) (q : ClaimReason) (e : QueueEntry) (hi :
    s.holds l i) : (s.dropEntry a q e).holds l i := by
  unfold State.dropEntry
  split
  · simpa using hi
  · exact State.holds_event _ _ _ (by simpa using hi)

theorem State.stamp_dropEntry (a : Option Head) (q : ClaimReason) (e : QueueEntry) (hi :
    s.holds l i) :
    (s.stamp l i r).dropEntry a q e = (s.dropEntry a q e).stamp l i r := by
  unfold State.dropEntry
  simp only [State.stamp_leaveQueue, State.stamp_setMonitor]
  split
  · rfl
  · exact State.stamp_event _ _ _ _ (by simpa using hi)

theorem State.holds_dropAll (a : Option Head) (q : ClaimReason) (es : List QueueEntry) (hi :
    s.holds l i) : (s.dropAll a q es).holds l i := by
  unfold State.dropAll
  induction es generalizing s with
  | nil => exact hi
  | cons e es ih => exact ih (State.holds_dropEntry a q e hi)

theorem State.stamp_dropAll (a : Option Head) (q : ClaimReason) (es : List QueueEntry) (hi :
    s.holds l i) :
    (s.stamp l i r).dropAll a q es = (s.dropAll a q es).stamp l i r := by
  unfold State.dropAll
  induction es generalizing s with
  | nil => rfl
  | cons e es ih =>
    simp only [List.foldl_cons, State.stamp_dropEntry r a q e hi]
    exact ih (State.holds_dropEntry a q e hi)

theorem State.holds_dropBroken (a : Option Head) (t : Fin 48) (hi : s.holds l i) :
    (s.dropBroken a t).holds l i := by
  exact State.holds_dropAll _ _ _ hi

theorem State.stamp_dropBroken (a : Option Head) (t : Fin 48) (hi : s.holds l i) :
    (s.stamp l i r).dropBroken a t = (s.dropBroken a t).stamp l i r := by
  unfold State.dropBroken; rw [State.stamp_waitingOnType]; exact State.stamp_dropAll _ _ _ _ hi

theorem State.holds_installType (t : Fin 48) (hi : s.holds l i) :
    (s.installType t).state.holds l i := by
  unfold State.installType
  simp only
  split
  · exact State.holds_dropBroken _ _ (by simpa using hi)
  · simpa using hi

theorem State.stamp_installType (t : Fin 48) (hi : s.holds l i) :
    (s.stamp l i r).installType t = ⟨(s.installType t).state.stamp l i r, (s.installType t).due⟩ := by
  unfold State.installType
  simp only [State.stamp_typeSlot, State.stamp_setType, State.stamp_waitingOnType]
  split
  · rw [State.stamp_dropBroken _ _ _ (by simpa using hi)]
  · rfl

theorem State.holds_releaseUser (t : Fin 48) (hi : s.holds l i) :
    (s.releaseUser t).state.holds l i := by
  unfold State.releaseUser
  simp only
  split
  · exact State.holds_installType _ (by simpa using hi)
  · simpa using hi

theorem State.stamp_releaseUser (t : Fin 48) (hi : s.holds l i) :
    (s.stamp l i r).releaseUser t = ⟨(s.releaseUser t).state.stamp l i r, (s.releaseUser t).due⟩ := by
  unfold State.releaseUser
  simp only [State.stamp_typeSlot, State.stamp_setType]
  split
  · rw [State.stamp_installType _ _ (by simpa using hi)]
  · rfl

theorem State.holds_releaseUserOf (h : Head) (hi : s.holds l i) :
    (s.releaseUserOf h).state.holds l i := by
  unfold State.releaseUserOf
  split
  · exact State.holds_releaseUser _ hi
  · exact hi

theorem State.stamp_releaseUserOf (h : Head) (hi : s.holds l i) :
    (s.stamp l i r).releaseUserOf h = ⟨(s.releaseUserOf h).state.stamp l i r, (s.releaseUserOf h).due⟩ := by
  unfold State.releaseUserOf
  simp only [State.stamp_monitor]
  split
  · rw [State.stamp_releaseUser _ _ hi]
  · rfl

theorem State.holds_endArmed (h : Head) (hi : s.holds l i) : (s.endArmed h).holds l i := by
  unfold State.endArmed
  simp only [State.holds_toIdle]
  exact State.holds_releaseUserOf _ (by simpa using hi)

theorem State.stamp_endArmed (h : Head) (hi : s.holds l i) :
    (s.stamp l i r).endArmed h = (s.endArmed h).stamp l i r := by
  unfold State.endArmed
  simp only [State.stamp_returnSite, State.stamp_freeZones]
  rw [State.stamp_releaseUserOf _ _ (by simpa using hi), State.stamp_toIdle]

theorem State.holds_revoke (h : Head) (q : ClaimReason) (hi : s.holds l i) :
    (s.revoke h q).holds l i := by
  unfold State.revoke
  split
  · split
    · exact State.holds_endArmed _ hi
    · exact State.holds_event _ _ _ (State.holds_endArmed _ hi)
  · exact State.holds_endArmed _ hi

theorem State.stamp_revoke (h : Head) (q : ClaimReason) (hi : s.holds l i) :
    (s.stamp l i r).revoke h q = (s.revoke h q).stamp l i r := by
  unfold State.revoke
  simp only [State.stamp_monitor, State.stamp_endArmed r h hi]
  split
  · split
    · rfl
    · exact State.stamp_event _ _ _ _ (State.holds_endArmed _ hi)
  · rfl

theorem State.holds_grant (e : QueueEntry) (t : Fin 48) (q : TypeRecord) (hi : s.holds l i) :
    (s.grant e t q).holds l i := by
  unfold State.grant
  exact State.holds_eventGranted _ _ _ (by simpa using hi)

theorem State.stamp_grant (e : QueueEntry) (t : Fin 48) (q : TypeRecord) (hi : s.holds l i) :
    (s.stamp l i r).grant e t q = (s.grant e t q).stamp l i r := by
  unfold State.grant
  simp only [State.stamp_typeSlot, State.stamp_setType, State.stamp_keepOut, State.stamp_takeZones,
    State.stamp_changeSite, State.stamp_leaveQueue, State.stamp_clock, State.stamp_setMonitor]
  exact State.stamp_eventGranted _ _ _ _ (by simpa using hi)

theorem State.holds_afterGrant (a : Option Head) (older : List QueueEntry) (n : Fin 96) (hi :
    s.holds l i) : (s.afterGrant a older n).holds l i := by
  unfold State.afterGrant
  simpa using State.holds_dropAll _ _ _ hi

theorem State.stamp_afterGrant (a : Option Head) (older : List QueueEntry) (n : Fin 96) (hi :
    s.holds l i) :
    (s.stamp l i r).afterGrant a older n = (s.afterGrant a older n).stamp l i r := by
  unfold State.afterGrant
  rw [State.stamp_waitingOnSite, State.stamp_dropAll _ _ _ _ hi, State.stamp_raiseBypass]

theorem State.holds_breakType (a : Option Head) (t : Fin 48) (hi : s.holds l i) :
    (s.breakType a t).holds l i := by
  exact State.holds_dropBroken _ _ (by simpa using hi)

theorem State.stamp_breakType (a : Option Head) (t : Fin 48) (hi : s.holds l i) :
    (s.stamp l i r).breakType a t = (s.breakType a t).stamp l i r := by
  unfold State.breakType
  rw [State.stamp_typeSlot, State.stamp_setType]
  exact State.stamp_dropBroken _ _ _ (by simpa using hi)

theorem State.holds_tryGrant (a : Option Head) (e : QueueEntry) (t : Fin 48) (hi : s.holds l i) :
    (s.tryGrant a e t).holds l i := by
  unfold State.tryGrant
  split
  · exact State.holds_afterGrant _ _ _ (State.holds_grant _ _ _ hi)
  · exact State.holds_breakType _ _ hi

theorem State.stamp_tryGrant (a : Option Head) (e : QueueEntry) (t : Fin 48) (hi : s.holds l i) :
    (s.stamp l i r).tryGrant a e t = (s.tryGrant a e t).stamp l i r := by
  unfold State.tryGrant
  simp only [State.stamp_typeSlot, State.stamp_olderThan]
  split
  · rw [State.stamp_grant _ _ _ _ hi]
    exact State.stamp_afterGrant _ _ _ _ (State.holds_grant _ _ _ hi)
  · exact State.stamp_breakType _ _ _ hi

theorem State.holds_passEntry (a : Option Head) (e : QueueEntry) (hi : s.holds l i) :
    (s.passEntry a e).holds l i := by
  unfold State.passEntry
  split
  · split
    · split
      · exact State.holds_tryGrant _ _ _ hi
      · exact hi
    · exact hi
  · exact State.holds_dropEntry _ _ _ hi

theorem State.stamp_passEntry (a : Option Head) (e : QueueEntry) (hi : s.holds l i) :
    (s.stamp l i r).passEntry a e = (s.passEntry a e).stamp l i r := by
  unfold State.passEntry
  simp only [State.stamp_meets, State.stamp_grantable, State.stamp_typeAt]
  split
  · split
    · split
      · exact State.stamp_tryGrant _ _ _ _ hi
      · rfl
    · rfl
  · exact State.stamp_dropEntry _ _ _ _ hi

theorem State.holds_passOver (a : Option Head) (hs : List Head) (hi : s.holds l i) :
    (State.passOver a hs s).holds l i := by
  induction hs generalizing s with
  | nil => exact hi
  | cons h hs ih =>
    unfold State.passOver; split
    · exact ih (State.holds_passEntry _ _ hi)
    · exact ih hi

theorem State.stamp_passOver (a : Option Head) (hs : List Head) (hi : s.holds l i) :
    State.passOver a hs (s.stamp l i r) = (State.passOver a hs s).stamp l i r := by
  induction hs generalizing s with
  | nil => rfl
  | cons h hs ih =>
    unfold State.passOver; simp only [State.stamp_entryOf]; split
    · rw [State.stamp_passEntry _ _ _ hi]; exact ih (State.holds_passEntry _ _ hi)
    · exact ih hi

theorem State.holds_pass (a : Option Head) (hi : s.holds l i) : (s.pass a).holds l i := by
  exact State.holds_passOver _ _ hi

theorem State.stamp_pass (a : Option Head) (hi : s.holds l i) :
    (s.stamp l i r).pass a = (s.pass a).stamp l i r := by
  unfold State.pass; rw [State.stamp_queue]; exact State.stamp_passOver _ _ _ hi

theorem Passing.holds_run {p : Passing} (hi : p.state.holds l i) : p.run.holds l i := by
  unfold Passing.run; split <;> [exact State.holds_pass _ hi; exact hi]

theorem Passing.stamp_run {p : Passing} (hi : p.state.holds l i) :
    (⟨p.state.stamp l i r, p.due⟩ : Passing).run = p.run.stamp l i r := by
  unfold Passing.run; simp only; split <;> [exact State.stamp_pass _ _ hi; rfl]

theorem Passing.stamp_run_mk (due : Bool) (hi : s.holds l i) :
    (⟨s.stamp l i r, due⟩ : Passing).run = (⟨s, due⟩ : Passing).run.stamp l i r :=
  Passing.stamp_run (p := ⟨s, due⟩) r hi

theorem State.holds_abortStroke (h : Head) (c : Cause) (further : List Cause) (hi : s.holds l i) :
    (s.abortStroke h c further).state.holds l i := by
  unfold State.abortStroke
  simp only
  split
  · refine State.holds_event _ _ _ ?_
    rw [State.holds_setFront]; exact State.holds_releaseUser _ (by simpa using hi)
  · exact hi

theorem State.stamp_abortStroke (h : Head) (c : Cause) (further : List Cause) (hi : s.holds l i) :
    (s.stamp l i r).abortStroke h c further = ⟨(s.abortStroke h c further).state.stamp l i r, (s.abortStroke h c further).due⟩ := by
  unfold State.abortStroke
  simp only [State.stamp_monitor, State.stamp_front]
  split
  · simp only [State.stamp_setMonitor, State.stamp_changeSite]
    rw [State.stamp_releaseUser _ _ (by simpa using hi)]
    simp only [State.stamp_setFront, State.eventAborted]
    rw [State.stamp_event _ _ _ _ (by rw [State.holds_setFront]; exact State.holds_releaseUser _ (by simpa using hi))]
  · rfl

theorem State.holds_strike (h : Head) (c : Cause) (hi : s.holds l i) :
    (s.strike h c).state.holds l i := by
  unfold State.strike
  split
  · exact State.holds_abortStroke _ _ _ hi
  · simpa using hi

theorem State.stamp_strike (h : Head) (c : Cause) (hi : s.holds l i) :
    (s.stamp l i r).strike h c = ⟨(s.strike h c).state.stamp l i r, (s.strike h c).due⟩ := by
  unfold State.strike
  simp only [State.stamp_monitor, State.stamp_setMonitor]
  split
  · exact State.stamp_abortStroke _ _ _ _ hi
  · rfl

theorem State.holds_closeIfAborted (hi : s.holds l i) : (s.closeIfAborted).holds l i := by
  unfold State.closeIfAborted; split <;> simpa using hi

@[simp] theorem State.stamp_closeIfAborted :
    (s.stamp l i r).closeIfAborted = (s.closeIfAborted).stamp l i r := by
  unfold State.closeIfAborted
  simp only [State.stamp_board, State.stamp_someUnacknowledged]
  split <;> simp

theorem State.holds_leaveStroke (h : Head) (hi : s.holds l i) : (s.leaveStroke h).holds l i := by
  exact State.holds_closeIfAborted (State.holds_pass _ (by simpa using hi))

theorem State.stamp_leaveStroke (h : Head) (hi : s.holds l i) :
    (s.stamp l i r).leaveStroke h = (s.leaveStroke h).stamp l i r := by
  unfold State.leaveStroke
  rw [State.stamp_freeZones, State.stamp_toIdle, State.stamp_pass _ _ (by simpa using hi)]
  exact State.stamp_closeIfAborted r

theorem State.holds_endHead (q : ClaimReason) (c : Cause) (h : Head) (hi : s.holds l i) :
    (s.endHead q c h).holds l i := by
  unfold State.endHead; split <;> [exact State.holds_revoke _ _ hi; exact State.holds_strike _ _ hi]

theorem State.stamp_endHead (q : ClaimReason) (c : Cause) (h : Head) (hi : s.holds l i) :
    (s.stamp l i r).endHead q c h = (s.endHead q c h).stamp l i r := by
  unfold State.endHead
  simp only [State.stamp_monitor]
  split
  · exact State.stamp_revoke _ _ _ hi
  · rw [State.stamp_strike _ _ _ hi]

theorem State.holds_foldl {α : Type} {g : State → α → State}
    (hg : ∀ s x, s.holds l i → (g s x).holds l i) (xs : List α) (hi : s.holds l i) :
    (xs.foldl g s).holds l i := by
  induction xs generalizing s with
  | nil => exact hi
  | cons x xs ih => exact ih (hg _ _ hi)

theorem State.stamp_foldl {α : Type} {g : State → α → State}
    (hg : ∀ s x, s.holds l i → (g s x).holds l i)
    (hs : ∀ s x, s.holds l i → g (s.stamp l i r) x = (g s x).stamp l i r) (xs : List α)
    (hi : s.holds l i) : xs.foldl g (s.stamp l i r) = (xs.foldl g s).stamp l i r := by
  induction xs generalizing s with
  | nil => rfl
  | cons x xs ih => simp only [List.foldl_cons, hs _ _ hi]; exact ih (hg _ _ hi)

theorem State.holds_endEverything (q : ClaimReason) (c : Cause) (hi : s.holds l i) :
    (s.endEverything q c).holds l i := by
  exact State.holds_foldl (fun _ x => State.holds_endHead q c x) _ (State.holds_dropAll _ _ _ hi)

theorem State.stamp_endEverything (q : ClaimReason) (c : Cause) (hi : s.holds l i) :
    (s.stamp l i r).endEverything q c = (s.endEverything q c).stamp l i r := by
  unfold State.endEverything
  rw [State.stamp_queue, State.stamp_dropAll _ _ _ _ hi]
  exact State.stamp_foldl _ (fun _ x => State.holds_endHead q c x)
    (fun _ x h => State.stamp_endHead r q c x h) _ (State.holds_dropAll _ _ _ hi)

theorem State.holds_abortBoard (hi : s.holds l i) : (s.abortBoard).holds l i := by
  exact State.holds_closeIfAborted (State.holds_endEverything _ _ (by exact hi))

theorem State.stamp_abortBoard (hi : s.holds l i) :
    (s.stamp l i r).abortBoard = (s.abortBoard).stamp l i r := by
  unfold State.abortBoard
  rw [State.stamp_board, State.stamp_withBoard, State.stamp_endEverything _ _ _ (by exact hi)]
  exact State.stamp_closeIfAborted r

theorem State.holds_endSiteClaims (n : Fin 96) (c : Option Head) (hi : s.holds l i) :
    (s.endSiteClaims n c).holds l i := by
  unfold State.endSiteClaims
  cases c with
  | none =>
    have h1 := State.holds_dropAll none .siteChanged (s.waitingOnSite n) hi
    simp only
    split <;> [exact State.holds_pass _ h1; exact h1]
  | some h =>
    have h1 := State.holds_dropAll none .siteChanged
      ((s.revoke h .siteChanged).waitingOnSite n) (State.holds_revoke h .siteChanged hi)
    simp only
    split <;> [exact State.holds_pass _ h1; exact h1]

theorem State.stamp_endSiteClaims (n : Fin 96) (c : Option Head) (hi : s.holds l i) :
    (s.stamp l i r).endSiteClaims n c = (s.endSiteClaims n c).stamp l i r := by
  unfold State.endSiteClaims
  cases c with
  | none =>
    simp only [State.stamp_waitingOnSite]
    have h1 := State.holds_dropAll none .siteChanged (s.waitingOnSite n) hi
    rw [State.stamp_dropAll _ _ _ _ hi]
    split <;> [exact State.stamp_pass _ _ h1; rfl]
  | some h =>
    have h0 := State.holds_revoke h .siteChanged hi
    have h1 := State.holds_dropAll none .siteChanged
      ((s.revoke h .siteChanged).waitingOnSite n) h0
    simp only [State.stamp_revoke r h .siteChanged hi, State.stamp_waitingOnSite]
    rw [State.stamp_dropAll _ _ _ _ h0]
    split <;> [exact State.stamp_pass _ _ h1; rfl]

theorem State.holds_placeRecord (t : Fin 48) (q : TypeRecord) (hi : s.holds l i) :
    (s.placeRecord t q).holds l i := by
  unfold State.placeRecord
  simp only
  split <;> [exact State.holds_pass _ (by simpa using hi); simpa using hi]

theorem State.stamp_placeRecord (t : Fin 48) (q : TypeRecord) (hi : s.holds l i) :
    (s.stamp l i r).placeRecord t q = (s.placeRecord t q).stamp l i r := by
  unfold State.placeRecord
  simp only [State.stamp_typeSlot, State.stamp_setType]
  split <;> [exact State.stamp_pass _ _ (by simpa using hi); rfl]

theorem State.holds_resetHead (h : Head) (hi : s.holds l i) : (s.resetHead h).holds l i := by
  unfold State.resetHead
  split
  · exact State.holds_revoke _ _ hi
  · split <;> [exact State.holds_abortStroke _ _ _ hi; exact hi]

theorem State.stamp_resetHead (h : Head) (hi : s.holds l i) :
    (s.stamp l i r).resetHead h = (s.resetHead h).stamp l i r := by
  unfold State.resetHead
  simp only [State.stamp_monitor]
  split
  · exact State.stamp_revoke _ _ _ hi
  · split
    · rw [State.stamp_abortStroke _ _ _ _ hi]
    · rfl

theorem State.holds_warmReset (hi : s.holds l i) : (s.warmReset).holds l i := by
  rw [State.warmReset, State.holds_clearSession]
  refine State.holds_foldl (fun _ x => State.holds_resetHead x) _ ?_
  rw [State.holds_closeBoard, State.holds_resetLibrary]
  exact State.holds_dropAll _ _ _ hi

theorem State.stamp_warmReset (hi : s.holds l i) :
    (s.stamp l i r).warmReset = (s.warmReset).stamp l i r := by
  unfold State.warmReset
  have h1 := State.holds_dropAll none .supervisorReset s.queue hi
  rw [State.stamp_queue, State.stamp_dropAll _ _ _ _ hi, State.stamp_resetLibrary,
    State.stamp_closeBoard, State.stamp_foldl r (fun _ x => State.holds_resetHead x)
    (fun _ x h => State.stamp_resetHead r x h) allHeads
    (by rw [State.holds_closeBoard, State.holds_resetLibrary]; exact h1), State.stamp_clearSession]

/-! ### Requests -/

/-- A request's effects and reply do not look at a frame that waits. -/
def Stamps (f : State → Answer) : Prop :=
  ∀ (s : State) (l : Link) (i : Nat) (r : OutFrame), s.holds l i →
    f (s.stamp l i r) = ⟨(f s).state.stamp l i r, (f s).reply⟩

theorem State.holds_withReply (kind tag : Byte) (st : Status) (bytes : List Byte) :
    (s.withReply l kind tag st bytes).holds l (s.link l).out.length := by
  simp [State.holds, State.withReply]

/-- A request that is taken gives what its effects give with the reply already in place (R169): to
use it, run `f` on the state with the reply, and show that it answers with that reply. -/
theorem State.take_eq {f : State → Answer} (hf : Stamps f) {kind tag : Byte} {st : Status}
    {bytes : List Byte} (up : (s.link l).up = true) (room : (s.link l).out.length < 16)
    (reply : (f (s.withReply l kind tag st bytes)).reply = { status := st, fields := bytes }) :
    s.take l kind tag f = (f (s.withReply l kind tag st bytes)).state := by
  have hholds := State.holds_withReply (s := s) (l := l) kind tag st bytes
  have hplace : s.offer l { kind := replyKind kind, tag := tag, payload := [] } =
      (s.withReply l kind tag st bytes).stamp l (s.link l).out.length
        { kind := replyKind kind, tag := tag, payload := [] } := by
    simp [State.offer, State.stamp, State.withReply, LinkState.offer, up, room,
      Config.outputSlots]
  have hst := hf _ l _ { kind := replyKind kind, tag := tag, payload := [] } hholds
  have hback : (f (s.withReply l kind tag st bytes)).state.stamp l (s.link l).out.length
      (replyFrame kind tag { status := st, fields := bytes }) =
        (f (s.withReply l kind tag st bytes)).state := by
    have hx : s.withReply l kind tag st bytes =
        (s.withReply l kind tag st bytes).stamp l (s.link l).out.length
          (replyFrame kind tag { status := st, fields := bytes }) := by
      simp [State.stamp, State.withReply]
    have h := hf _ l _ (replyFrame kind tag { status := st, fields := bytes }) hholds
    rw [← hx] at h
    exact (congrArg Answer.state h).symm
  unfold State.take
  simp only [hplace, hst, reply]
  conv => rhs; rw [← hback]
  simp [State.stamp]

/-- A request that a link takes (R169). -/
theorem State.request_eq {f : State → Answer} (hf : Stamps f) {kind tag : Byte}
    {payload : List Byte} {st : Status} {bytes : List Byte} (ht : s.takes l = true)
    (hp : payload.length ≤ 250)
    (reply : (f (s.withReply l kind tag st bytes)).reply = { status := st, fields := bytes }) :
    s.request l kind tag payload f = (f (s.withReply l kind tag st bytes)).state := by
  simp only [State.takes, Bool.and_eq_true, Bool.not_eq_true',
    Config.outputSlots] at ht
  obtain ⟨⟨hr, hu⟩, ho⟩ := ht
  replace ho := of_decide_eq_true ho
  have hp' : ¬ 250 < payload.length := by omega
  have ho' : ¬ 16 ≤ (s.link l).out.length := by omega
  unfold State.request
  simp only [hr, hu, Config.maxPayload, Config.outputSlots, hp', ho', if_false, or_false,
    Bool.false_eq_true, Bool.true_eq_false]
  exact State.take_eq hf hu ho reply


/-- The whole answer of a request that a link takes, from that of its effects with the reply in
place. -/
theorem State.request_of {f : State → Answer} (hf : Stamps f) {kind tag : Byte}
    {payload : List Byte} {st : Status} {bytes : List Byte} {t : State} (ht : s.takes l = true)
    (hp : payload.length ≤ 250)
    (h : f (s.withReply l kind tag st bytes) = ⟨t, { status := st, fields := bytes }⟩) :
    s.request l kind tag payload f = t := by
  rw [State.request_eq hf (st := st) (bytes := bytes) ht hp (by rw [h]), h]

/-- A request that changes nothing and is answered with these fields. -/
theorem State.request_answer {f : State → Answer} (hf : Stamps f) {kind tag : Byte}
    {payload : List Byte} {st : Status} {bytes : List Byte} (ht : s.takes l = true)
    (hp : payload.length ≤ 250)
    (h : f (s.withReply l kind tag st bytes) = (s.withReply l kind tag st bytes).answer st bytes) :
    s.request l kind tag payload f = s.withReply l kind tag st bytes := by
  rw [State.request_eq hf (st := st) (bytes := bytes) ht hp (by rw [h]; rfl), h]
  rfl

/-- A request that changes nothing and is answered with a status alone. -/
theorem State.request_turnDown {f : State → Answer} (hf : Stamps f) {kind tag : Byte}
    {payload : List Byte} {st : Status} (ht : s.takes l = true) (hp : payload.length ≤ 250)
    (h : f (s.withReply l kind tag st []) = (s.withReply l kind tag st []).turnDown st) :
    s.request l kind tag payload f = s.withReply l kind tag st [] :=
  State.request_answer hf ht hp h

end Sys2Proof.Machine
end

