-- ==== Sys2Proof/Laws/Requests.lean ====
section
/-! SUPPORT. Every request's effects and reply commute with exchanging a waiting frame (`Stamps`), so
that `State.request_eq` holds for each of them. -/

namespace Sys2Proof.Machine

variable {s : State} {l : Link} {i : Nat} {r : OutFrame}

@[simp] theorem State.stamp_turnDown (st : Status) :
    (s.stamp l i r).turnDown st =
      ⟨(s.turnDown st).state.stamp l i r, (s.turnDown st).reply⟩ := rfl

@[simp] theorem State.stamp_answer (st : Status) (bytes : List Byte) :
    (s.stamp l i r).answer st bytes =
      ⟨(s.answer st bytes).state.stamp l i r, (s.answer st bytes).reply⟩ := rfl

@[simp] theorem stamp_headStatusBytes (h : Head) :
    headStatusBytes (s.stamp l i r) h = headStatusBytes s h := by cases l <;> rfl

@[simp] theorem stamp_cellHeadBytes (h : Head) :
    cellHeadBytes (s.stamp l i r) h = cellHeadBytes s h := by cases l <;> rfl

@[simp] theorem stamp_boardBytes : boardBytes (s.stamp l i r) = boardBytes s := by cases l <;> rfl

@[simp] theorem stamp_summaryBytes : summaryBytes (s.stamp l i r) = summaryBytes s := by
  cases l <;> rfl

@[simp] theorem stamp_cellStatusBytes : cellStatusBytes (s.stamp l i r) = cellStatusBytes s := by
  have hl : ((s.stamp l i r).headLinks.toList ++ [(s.stamp l i r).cellLink]).map (·.up) =
      (s.headLinks.toList ++ [s.cellLink]).map (·.up) := by
    cases l with
    | cell => rfl
    | head h => cases h <;> rfl
  have hm : ∀ ks : List LinkState,
      (ks.map fun k => flagByte k.up) = (ks.map (·.up)).map flagByte := by
    intro ks; simp
  unfold cellStatusBytes
  rw [hm, hm, hl]
  simp only [State.stamp_estop, State.stamp_attn, State.stamp_board, stamp_boardBytes,
    State.stamp_zones, State.stamp_queue, State.stamp_records, State.stamp_reserved,
    State.stamp_pendingCount]
  have hc : cellHeadBytes (s.stamp l i r) = cellHeadBytes s := funext fun h => stamp_cellHeadBytes h
  rw [hc]

@[simp] theorem stamp_claimReply (h : Head) (n : Fin 96) :
    claimReply (s.stamp l i r) h n = claimReply s h n := by cases l <;> rfl

/-! ### The head links -/

theorem helloAnswer_stamps (j : Link) (payload : List Byte) : Stamps (helloAnswer j payload) := by
  intro s l i r _
  unfold helloAnswer; split <;> rfl

theorem statusAnswer_stamps (h : Head) (payload : List Byte) : Stamps (statusAnswer h payload) := by
  intro s l i r _
  unfold statusAnswer; split <;> simp

theorem homeAnswer_stamps (h : Head) (payload : List Byte) : Stamps (homeAnswer h payload) := by
  intro s l i r _
  unfold homeAnswer
  simp only [State.stamp_monitor, State.stamp_front, State.stamp_setFront]
  split
  · rfl
  · split <;> rfl

theorem State.stamp_claimWaiting (h : Head) (c : Claim) (hi : s.holds l i) :
    (s.stamp l i r).claimWaiting h c =
      ⟨(s.claimWaiting h c).state.stamp l i r, (s.claimWaiting h c).reply⟩ := by
  unfold State.claimWaiting
  simp only [State.stamp_joinQueue, State.stamp_monitor, State.stamp_setMonitor]
  rw [State.stamp_pass r none (by simpa using hi)]
  simp only [stamp_claimReply]

theorem State.stamp_claimAtOnce (h : Head) (c : Claim) (hi : s.holds l i) :
    (s.stamp l i r).claimAtOnce h c =
      ⟨(s.claimAtOnce h c).state.stamp l i r, (s.claimAtOnce h c).reply⟩ := by
  unfold State.claimAtOnce
  simp only [State.stamp_joinQueue]
  rw [State.stamp_pass r (some h) (by simpa using hi)]
  simp only [State.stamp_monitor, State.stamp_leaveQueue, State.stamp_missing, stamp_claimReply]
  split <;> rfl

theorem State.stamp_claimSite (h : Head) (wait : Bool) (c : Claim) (hi : s.holds l i) :
    (s.stamp l i r).claimSite h wait c =
      ⟨(s.claimSite h wait c).state.stamp l i r, (s.claimSite h wait c).reply⟩ := by
  unfold State.claimSite
  simp only [State.stamp_meets, State.stamp_typeStateAt, State.stamp_claimWaiting h c hi,
    State.stamp_claimAtOnce h c hi]
  split
  · rfl
  · split
    · rfl
    · split <;> rfl

theorem claimAnswer_stamps (h : Head) (payload : List Byte) : Stamps (claimAnswer h payload) := by
  intro s l i r hi
  unfold claimAnswer
  simp only [State.stamp_board, State.stamp_estop, State.stamp_monitor, State.stamp_turnDown,
    State.stamp_claimSite _ _ _ hi]
  repeat' split
  all_goals rfl

theorem releaseAnswer_stamps (h : Head) (payload : List Byte) : Stamps (releaseAnswer h payload) := by
  intro s l i r hi
  unfold releaseAnswer
  simp only [State.stamp_monitor, State.stamp_leaveQueue, State.stamp_toIdle,
    State.stamp_turnDown, State.stamp_endArmed r h hi]
  rw [State.stamp_pass r none (s := (s.leaveQueue h).toIdle h) (by simpa using hi),
    State.stamp_pass r none (State.holds_endArmed h hi)]
  repeat' split
  all_goals rfl

theorem startAnswer_stamps (h : Head) (payload : List Byte) : Stamps (startAnswer h payload) := by
  intro s l i r _
  have hr : ∀ st, (s.stamp l i r).refuseStart h st =
      ⟨(s.refuseStart h st).state.stamp l i r, (s.refuseStart h st).reply⟩ := by
    intro st; simp [State.refuseStart]
  have ha : ∀ c w, (s.stamp l i r).acceptStart h c w =
      ⟨(s.acceptStart h c w).state.stamp l i r, (s.acceptStart h c w).reply⟩ := by
    intro c w
    unfold State.acceptStart
    simp only [State.stamp_startStroke, State.stamp_monitor]
    split <;> rfl
  have hs : (s.stamp l i r).startArmed h =
      ⟨(s.startArmed h).state.stamp l i r, (s.startArmed h).reply⟩ := by
    unfold State.startArmed
    simp only [State.stamp_monitor, State.stamp_front, State.stamp_answer, hr, ha]
    repeat' split
    all_goals rfl
  unfold startAnswer
  simp only [State.stamp_monitor, hr, hs]
  repeat' split
  all_goals rfl

theorem stopAnswer_stamps (h : Head) (payload : List Byte) : Stamps (stopAnswer h payload) := by
  intro s l i r hi
  unfold stopAnswer
  simp only [State.stamp_monitor, State.stamp_turnDown, State.stamp_abortStroke r h _ _ hi]
  rw [Passing.stamp_run r (State.holds_abortStroke h _ _ hi)]
  repeat' split
  all_goals rfl

theorem retractedAnswer_stamps (h : Head) (payload : List Byte) :
    Stamps (retractedAnswer h payload) := by
  intro s l i r hi
  unfold retractedAnswer
  simp only [State.stamp_monitor, State.stamp_turnDown, State.stamp_leaveStroke r h hi,
    State.stamp_zonesHeld]
  repeat' split
  all_goals rfl

theorem haltAckAnswer_stamps (h : Head) (payload : List Byte) : Stamps (haltAckAnswer h payload) := by
  intro s l i r hi
  have ha : ∀ a, (s.stamp l i r).acknowledge h a =
      ⟨(s.acknowledge h a).state.stamp l i r, (s.acknowledge h a).reply⟩ := by
    intro a
    unfold State.acknowledge
    rw [State.stamp_appendDue, State.stamp_leaveStroke r h (by simpa using hi)]
    simp
  unfold haltAckAnswer
  simp only [State.stamp_monitor, State.stamp_turnDown, ha]
  repeat' split
  all_goals rfl

theorem unknownAnswer_stamps (kind : Byte) : Stamps (unknownAnswer kind) := fun _ _ _ _ _ => rfl

/-! ### The cell link -/

theorem cellStatusAnswer_stamps (payload : List Byte) : Stamps (cellStatusAnswer payload) := by
  intro s l i r _
  unfold cellStatusAnswer; split <;> simp

theorem configureHeadAnswer_stamps (payload : List Byte) : Stamps (configureHeadAnswer payload) := by
  intro s l i r _
  unfold configureHeadAnswer State.configure
  simp only [State.stamp_monitor, State.stamp_front, State.stamp_setFront, State.stamp_turnDown,
    State.stamp_answer]
  repeat' split
  all_goals rfl

theorem boardBeginAnswer_stamps (payload : List Byte) : Stamps (boardBeginAnswer payload) := by
  intro s l i r _
  unfold boardBeginAnswer
  simp only [State.stamp_board, State.stamp_someUnacknowledged, State.stamp_openBoard,
    State.stamp_turnDown, State.stamp_answer, stamp_boardBytes]
  repeat' split
  all_goals rfl

theorem boardEndAnswer_stamps (payload : List Byte) : Stamps (boardEndAnswer payload) := by
  intro s l i r hi
  unfold boardEndAnswer
  simp only [State.stamp_board, State.stamp_monitors, State.stamp_queue, State.stamp_turnDown,
    State.stamp_dropAll r none .boardClosed s.queue hi, State.stamp_closeBoard,
    State.stamp_answer, stamp_summaryBytes]
  repeat' split
  all_goals rfl

theorem boardAbortAnswer_stamps (payload : List Byte) : Stamps (boardAbortAnswer payload) := by
  intro s l i r hi
  unfold boardAbortAnswer
  simp only [State.stamp_board, State.stamp_turnDown, State.stamp_answer, State.stamp_abortBoard r hi]
  repeat' split
  all_goals rfl

theorem State.stamp_onOpenSite {n : Nat} {f g : Fin 96 → Answer}
    (hfg : ∀ m, g m = ⟨(f m).state.stamp l i r, (f m).reply⟩) :
    (s.stamp l i r).onOpenSite n g =
      ⟨(s.onOpenSite n f).state.stamp l i r, (s.onOpenSite n f).reply⟩ := by
  unfold State.onOpenSite
  simp only [State.stamp_board, State.stamp_turnDown, hfg]
  repeat' split
  all_goals rfl

theorem siteDefineAnswer_stamps (payload : List Byte) : Stamps (siteDefineAnswer payload) := by
  intro s l i r _
  have hd : ∀ m, (s.stamp l i r).defineSite payload m =
      ⟨(s.defineSite payload m).state.stamp l i r, (s.defineSite payload m).reply⟩ := by
    intro m
    unfold State.defineSite
    simp only [State.stamp_typeSlot, State.stamp_definable, State.stamp_setSite,
      State.stamp_turnDown, State.stamp_answer]
    repeat' split
    all_goals rfl
  unfold siteDefineAnswer
  simp only [State.stamp_turnDown, State.stamp_onOpenSite hd]
  repeat' split
  all_goals rfl

theorem loadAnswer_stamps (payload : List Byte) : Stamps (loadAnswer payload) := by
  intro s l i r _
  have hd : ∀ m, (s.stamp l i r).loadSite m =
      ⟨(s.loadSite m).state.stamp l i r, (s.loadSite m).reply⟩ := by
    intro m
    unfold State.loadSite
    simp only [State.stamp_site, State.stamp_setSite, State.stamp_turnDown, State.stamp_answer]
    repeat' split
    all_goals rfl
  unfold loadAnswer
  simp only [State.stamp_turnDown, State.stamp_onOpenSite hd]
  repeat' split
  all_goals rfl

theorem unloadAnswer_stamps (payload : List Byte) : Stamps (unloadAnswer payload) := by
  intro s l i r hi
  have hd : ∀ m, (s.stamp l i r).unloadSite m =
      ⟨(s.unloadSite m).state.stamp l i r, (s.unloadSite m).reply⟩ := by
    intro m
    unfold State.unloadSite
    simp only [State.stamp_site, State.stamp_setSite, State.stamp_turnDown]
    split
    · rfl
    · split
      · rw [State.stamp_endSiteClaims r m _ (by simpa using hi)]; rfl
      · rfl
  unfold unloadAnswer
  simp only [State.stamp_turnDown, State.stamp_onOpenSite hd]
  repeat' split
  all_goals rfl

theorem readSiteAnswer_stamps (payload : List Byte) : Stamps (readSiteAnswer payload) := by
  intro s l i r _
  unfold readSiteAnswer
  simp only [State.stamp_board, State.stamp_site, State.stamp_turnDown, State.stamp_answer]
  repeat' split
  all_goals rfl

theorem loadTypeAnswer_stamps (payload : List Byte) : Stamps (loadTypeAnswer payload) := by
  intro s l i r hi
  have hd : ∀ t q, (s.stamp l i r).loadRecord t q =
      ⟨(s.loadRecord t q).state.stamp l i r, (s.loadRecord t q).reply⟩ := by
    intro t q
    unfold State.loadRecord
    simp only [State.stamp_placeRecord r t q hi, State.stamp_typeSlot, State.stamp_pendingCount,
      State.stamp_answer]
    split <;> rfl
  unfold loadTypeAnswer
  simp only [State.stamp_turnDown, State.stamp_answer, hd]
  repeat' split
  all_goals rfl

theorem State.stamp_onType {payload : List Byte} {f g : Fin 48 → Answer}
    (hfg : ∀ t, g t = ⟨(f t).state.stamp l i r, (f t).reply⟩) :
    (s.stamp l i r).onType payload g =
      ⟨(s.onType payload f).state.stamp l i r, (s.onType payload f).reply⟩ := by
  unfold State.onType
  simp only [State.stamp_typeSlot, State.stamp_turnDown, hfg]
  repeat' split
  all_goals rfl

theorem purgeTypeAnswer_stamps (payload : List Byte) : Stamps (purgeTypeAnswer payload) := by
  intro s l i r _
  refine State.stamp_onType fun t => ?_
  unfold State.purge
  simp only [State.stamp_typeSlot, State.stamp_typeNamed, State.stamp_setType, State.stamp_turnDown,
    State.stamp_answer]
  repeat' split
  all_goals rfl

theorem readTypeAnswer_stamps (payload : List Byte) : Stamps (readTypeAnswer payload) := by
  intro s l i r hi
  have hf : ∀ t slot, (s.stamp l i r).foundBroken t slot =
      ⟨(s.foundBroken t slot).state.stamp l i r, (s.foundBroken t slot).reply⟩ := by
    intro t slot
    have h1 : (s.setType t { slot with state := .broken }).holds l i := by simpa using hi
    unfold State.foundBroken
    simp only [State.stamp_setType, State.stamp_waitingOnType, State.stamp_dropBroken r none t h1]
    rw [Passing.stamp_run_mk r _ (State.holds_dropBroken none t h1)]
  have hr : ∀ (u : State) t q, (u.stamp l i r).reportType t q =
      ⟨(u.reportType t q).state.stamp l i r, (u.reportType t q).reply⟩ := by
    intro u t q; unfold State.reportType; simp
  refine State.stamp_onType fun t => ?_
  unfold State.readType State.readDraining
  simp only [State.stamp_typeSlot, State.stamp_setType, State.stamp_answer, hf, hr]
  repeat' split
  all_goals rfl

theorem takeRecordAnswer_stamps (payload : List Byte) : Stamps (takeRecordAnswer payload) := by
  intro s l i r hi
  unfold takeRecordAnswer
  simp only [State.stamp_records, State.stamp_reserved, State.stamp_withRecords,
    State.stamp_turnDown, State.stamp_answer]
  split
  · rfl
  · split
    · rfl
    · rename_i rest _
      rw [State.stamp_pass r none (s := { s with records := rest }) (by exact hi)]; rfl

theorem warmResetAnswer_stamps (payload : List Byte) : Stamps (warmResetAnswer payload) := by
  intro s l i r hi
  unfold warmResetAnswer
  simp only [State.stamp_warmReset r hi, State.stamp_records, State.stamp_monitors,
    State.stamp_turnDown, State.stamp_answer]
  split <;> rfl

end Sys2Proof.Machine
end

