-- ==== Sys2Proof/Laws/Timebase.lean ====
section
/-! SUPPORT. The hold timers (R76): which expiry comes next, what an expiry and a pass leave of the timers,
and what the passing of time can do. -/

namespace Sys2Proof.Machine

variable {s t u : State}

/-! ### Running timers -/

/-- A timer runs exactly on an ARMED head with a grant time (R76). -/
theorem State.dueEvent_eq_some (h : Head) (n : Nat) :
    s.dueEvent h = some n ↔ (s.monitor h).state = .armed ∧
      ∃ granted, (s.monitor h).grantTime = some granted ∧ n = s.expiryEvent granted := by
  unfold State.dueEvent
  cases (s.monitor h).state <;> cases (s.monitor h).grantTime <;> simp [eq_comm]

@[simp] theorem State.dueEvent_notBefore (k : Nat) (h : Head) :
    (s.notBefore k).dueEvent h = s.dueEvent h := rfl

/-- A timer read off a head's monitor and the hold time. -/
theorem State.dueEvent_congr {h : Head} (hm : t.monitor h = s.monitor h)
    (hb : t.board = s.board) : t.dueEvent h = s.dueEvent h := by
  simp only [State.dueEvent, hm, State.expiryEvent, State.holdEnd, hb]

theorem State.dueEvent_of_not_armed {h : Head} (hm : (s.monitor h).state ≠ .armed) :
    s.dueEvent h = none := by
  unfold State.dueEvent
  split <;> simp_all

/-- The first event at or after the end of a hold is at or after it, and less than 10 ms after it (R76). -/
theorem State.expiryEvent_bounds (granted : Nat) :
    s.holdEnd granted ≤ eventTime (s.expiryEvent granted) ∧
      eventTime (s.expiryEvent granted) < s.holdEnd granted + 10000 := by
  simp only [eventTime, State.expiryEvent, Config.timebase]
  omega

/-- It is the one event whose time is at or after the end of the hold by less than 10 ms (R76). -/
theorem State.expiryEvent_eq_iff (granted event : Nat) :
    s.expiryEvent granted = event ↔
      granted + s.board.holdTime * 100000 ≤ event * 10000 ∧
        event * 10000 < granted + s.board.holdTime * 100000 + 10000 := by
  simp only [State.expiryEvent, State.holdEnd, Config.timebase, Config.holdStep]
  omega

/-! ### The next expiry -/

/-- No expiry comes where no timer runs. -/
theorem State.nextDue_eq_none : s.nextDue = none ↔ ∀ h, s.dueEvent h = none := by
  constructor
  · intro hn h
    revert hn
    simp only [State.nextDue, allHeads, List.foldl, State.earlier]
    cases h <;> rcases s.dueEvent .h0 with _ | _ <;> rcases s.dueEvent .h1 with _ | _ <;>
      rcases s.dueEvent .h2 with _ | _ <;> rcases s.dueEvent .h3 with _ | _ <;> simp <;>
      (repeat' split) <;> simp
  · intro hn
    simp [State.nextDue, allHeads, State.earlier, hn]

/-- The next expiry is that of a running timer, and no timer ends sooner. -/
theorem State.nextDue_eq_some {d : Due} (hd : s.nextDue = some d) :
    s.dueEvent d.head = some d.event ∧ ∀ h n, s.dueEvent h = some n → d.event ≤ n := by
  have step : ∀ (hs : List Head) (found : Option Due),
      (∀ d, found = some d → s.dueEvent d.head = some d.event) →
      ∀ d, hs.foldl s.earlier found = some d →
        s.dueEvent d.head = some d.event ∧ (∀ d', found = some d' → d.event ≤ d'.event) ∧
          ∀ h ∈ hs, ∀ n, s.dueEvent h = some n → d.event ≤ n := by
    intro hs
    induction hs with
    | nil => intro found hf d hd; exact ⟨hf d hd, fun d' hd' => by cases hd.symm.trans hd'; rfl, by simp⟩
    | cons k hs ih =>
      intro found hf d hd
      have hnew : ∀ d, s.earlier found k = some d → s.dueEvent d.head = some d.event := by
        intro d hd
        unfold State.earlier at hd
        split at hd
        · split at hd <;> cases hd
          · assumption
          · exact hf _ rfl
        · cases hd; assumption
        · exact hf d hd
      obtain ⟨h1, h2, h3⟩ := ih _ hnew d hd
      have hle : (∀ d', found = some d' → d.event ≤ d'.event) ∧
          ∀ n, s.dueEvent k = some n → d.event ≤ n := by
        unfold State.earlier at h2
        cases hk : s.dueEvent k with
        | none => exact ⟨fun d' hd' => h2 d' (by simp [hk, hd']), by simp⟩
        | some m =>
          cases found with
          | none => exact ⟨by simp, fun n hn => by cases hn; exact h2 ⟨k, m⟩ (by simp [hk])⟩
          | some f =>
            by_cases hlt : m < f.event
            · have := h2 ⟨k, m⟩ (by simp [hk, hlt])
              exact ⟨fun d' hd' => by cases hd'; exact Nat.le_trans this hlt.le,
                fun n hn => by cases hn; exact this⟩
            · have := h2 f (by simp [hk, hlt])
              exact ⟨fun d' hd' => by cases hd'; exact this,
                fun n hn => by cases hn; omega⟩
      refine ⟨h1, hle.1, ?_⟩
      intro h hh n hn
      rcases List.mem_cons.1 hh with rfl | hh
      · exact hle.2 n hn
      · exact h3 h hh n hn
  obtain ⟨h1, -, h3⟩ := step allHeads none (by simp) d hd
  exact ⟨h1, fun h n hn => h3 h (by cases h <;> decide) n hn⟩

/-- Where one timer ends before every other, its expiry is the next. -/
theorem State.nextDue_of_first {h : Head} {n : Nat} (hn : s.dueEvent h = some n)
    (first : ∀ h' n', h' ≠ h → s.dueEvent h' = some n' → n < n') :
    s.nextDue = some { head := h, event := n } := by
  cases hd : s.nextDue with
  | none => rw [State.nextDue_eq_none.1 hd h] at hn; cases hn
  | some d =>
    obtain ⟨h1, h2⟩ := State.nextDue_eq_some hd
    by_cases he : d.head = h
    · rw [he, hn] at h1; cases h1; cases d; cases he; rfl
    · have := first _ _ he h1
      have := h2 h n hn
      omega

/-! ### What a step leaves of the timers -/

/-- The running timers and the waiting claims that could start one more. -/
def State.timersLeft (s : State) : Nat :=
  s.queue.length + allHeads.countP fun h => (s.dueEvent h).isSome

theorem State.timersLeft_le_bound : s.timersLeft ≤ s.expiryBound :=
  Nat.add_le_add_left List.countP_le_length _

/-- What drops, ends of claims and a pass do to the timers: the time and the hold time stay, a waiting
claim becomes at most one timer, and a timer stays, stops, or is one started now. -/
structure TimersFrom (s t : State) : Prop where
  clock : t.clock = s.clock
  board : t.board = s.board
  left : t.timersLeft ≤ s.timersLeft
  timer : ∀ h, t.dueEvent h = none ∨ t.dueEvent h = s.dueEvent h ∨
    t.dueEvent h = some (s.expiryEvent s.clock)

theorem TimersFrom.refl (s : State) : TimersFrom s s :=
  ⟨rfl, rfl, Nat.le_refl _, fun _ => .inr (.inl rfl)⟩

theorem TimersFrom.trans (h1 : TimersFrom s t) (h2 : TimersFrom t u) : TimersFrom s u where
  clock := h2.clock.trans h1.clock
  board := h2.board.trans h1.board
  left := Nat.le_trans h2.left h1.left
  timer h := by
    rcases h2.timer h with e | e | e
    · exact .inl e
    · rw [e]; exact h1.timer h
    · right; right
      rw [e, h1.clock]
      simp only [State.expiryEvent, State.holdEnd, h1.board]

/-- A step that starts no timer and adds no waiting claim. -/
theorem TimersFrom.of_stops (clock : t.clock = s.clock) (board : t.board = s.board)
    (queue : t.queue.length ≤ s.queue.length)
    (timer : ∀ h, t.dueEvent h = none ∨ t.dueEvent h = s.dueEvent h) : TimersFrom s t where
  clock := clock
  board := board
  left := by
    refine Nat.add_le_add queue (List.countP_mono_left fun h _ ht => ?_)
    rcases timer h with e | e
    · rw [e] at ht; cases ht
    · rwa [e] at ht
  timer h := (timer h).imp_right .inl

/-- A step of the blocks that starts no timer: heads become IDLE or stay, and no claim joins. -/
structure OnlyIdles (s t : State) : Prop where
  clock : t.clock = s.clock
  board : t.board = s.board
  queue : t.queue.length ≤ s.queue.length
  monitor : ∀ h, t.monitor h = Monitor.idle ∨ t.monitor h = s.monitor h

theorem OnlyIdles.trans (h1 : OnlyIdles s t) (h2 : OnlyIdles t u) : OnlyIdles s u where
  clock := h2.clock.trans h1.clock
  board := h2.board.trans h1.board
  queue := Nat.le_trans h2.queue h1.queue
  monitor h := by
    rcases h2.monitor h with e | e
    · exact .inl e
    · rw [e]; exact h1.monitor h

theorem OnlyIdles.due (hi : OnlyIdles s t) (h : Head) :
    t.dueEvent h = none ∨ t.dueEvent h = s.dueEvent h :=
  (hi.monitor h).imp (fun e => State.dueEvent_of_not_armed (by rw [e]; decide))
    (fun e => State.dueEvent_congr e hi.board)

theorem OnlyIdles.timers (hi : OnlyIdles s t) : TimersFrom s t :=
  .of_stops hi.clock hi.board hi.queue hi.due

theorem State.dropAll_idles (a : Option Head) (r : ClaimReason) (es : List QueueEntry) :
    OnlyIdles s (s.dropAll a r es) where
  clock := by simp
  board := by simp
  queue := by rw [State.dropAll_queue]; exact List.length_filter_le _ _
  monitor h := by rw [State.dropAll_monitor]; split <;> simp

theorem State.setType_idles (i : Fin 48) (slot : TypeSlot) : OnlyIdles s (s.setType i slot) :=
  ⟨rfl, rfl, Nat.le_refl _, fun _ => .inr rfl⟩

theorem State.breakType_idles (a : Option Head) (i : Fin 48) : OnlyIdles s (s.breakType a i) :=
  (State.setType_idles _ _).trans (State.dropAll_idles _ _ _)

theorem State.installType_idles (i : Fin 48) : OnlyIdles s (s.installType i).state := by
  unfold State.installType
  simp only
  split
  · exact (State.setType_idles _ _).trans (State.dropAll_idles _ _ _)
  · exact State.setType_idles _ _

theorem State.releaseUser_idles (i : Fin 48) : OnlyIdles s (s.releaseUser i).state := by
  unfold State.releaseUser
  simp only
  split
  · exact (State.setType_idles _ _).trans (State.installType_idles _)
  · exact State.setType_idles _ _

theorem State.releaseUserOf_idles (h : Head) : OnlyIdles s (s.releaseUserOf h).state := by
  unfold State.releaseUserOf
  split
  · exact State.releaseUser_idles _
  · exact ⟨rfl, rfl, Nat.le_refl _, fun _ => .inr rfl⟩

/-- The end of an armed claim starts no timer, and its head is IDLE (R76, R77). -/
theorem State.endArmed_idles (h : Head) :
    OnlyIdles s (s.endArmed h) ∧ (s.endArmed h).monitor h = Monitor.idle := by
  have before : OnlyIdles s ((s.returnSite h).freeZones h) :=
    ⟨by simp, by simp, by simp, fun k => .inr (by simp [State.monitor])⟩
  have after : ∀ x : State, OnlyIdles x (x.toIdle h) := fun x =>
    ⟨rfl, rfl, Nat.le_refl _, fun k => by rw [State.toIdle_monitor]; split <;> simp⟩
  exact ⟨(before.trans (State.releaseUserOf_idles h)).trans (after _), by simp [State.endArmed]⟩

theorem State.eventExpired_idles (h : Head) (n : Fin 96) : OnlyIdles s (s.eventExpired h n) :=
  ⟨rfl, rfl, Nat.le_refl _, fun _ => .inr rfl⟩

theorem State.raiseBypass_timers (older : List QueueEntry) (n : Fin 96) :
    TimersFrom s (s.raiseBypass older n) :=
  OnlyIdles.timers ⟨rfl, rfl, by simp [State.raiseBypass], fun _ => .inr rfl⟩

/-- The queue is shorter once an entry of it has left (R65). -/
theorem State.leaveQueue_length {e : QueueEntry} (he : e ∈ s.queue) :
    (s.leaveQueue e.head).queue.length < s.queue.length := by
  rw [State.leaveQueue_queue]
  exact List.length_filter_lt_length_iff_exists.2 ⟨e, he, by simp⟩

/-- A grant turns one waiting claim into one timer, started now (R73). -/
theorem State.grant_timers {e : QueueEntry} (he : e ∈ s.queue) (i : Fin 48) (r : TypeRecord) :
    TimersFrom s (s.grant e i r) := by
  have mon : ∀ h, h ≠ e.head → (s.grant e i r).monitor h = s.monitor h := by
    intro h hh; simp [State.grant, State.eventGranted, hh]
  have own : (s.grant e i r).dueEvent e.head = some (s.expiryEvent s.clock) := by
    rw [State.dueEvent_eq_some]
    refine ⟨by simp [State.grant, State.eventGranted], s.clock,
      by simp [State.grant, State.eventGranted], ?_⟩
    simp [State.expiryEvent, State.holdEnd]
  have due : ∀ h, h ≠ e.head → (s.grant e i r).dueEvent h = s.dueEvent h := fun h hh =>
    State.dueEvent_congr (mon h hh) (by simp)
  have queue : (s.grant e i r).queue = (s.leaveQueue e.head).queue := by
    simp [State.grant, State.leaveQueue]
  refine ⟨by simp, by simp, ?_, fun h => ?_⟩
  · have shorter := State.leaveQueue_length he
    have count : (allHeads.countP fun h => ((s.grant e i r).dueEvent h).isSome) ≤
        (allHeads.countP fun h => (s.dueEvent h).isSome) + 1 := by
      simp only [allHeads, List.countP_cons, List.countP_nil]
      have h0 := due .h0; have h1 := due .h1; have h2 := due .h2; have h3 := due .h3
      revert own h0 h1 h2 h3
      cases e.head <;> intro own h0 h1 h2 h3 <;> simp at h0 h1 h2 h3 <;>
        simp only [own, h0, h1, h2, h3] <;> (repeat' split) <;> omega
    simp only [State.timersLeft, queue]
    omega
  · by_cases hh : h = e.head
    · subst hh; exact .inr (.inr own)
    · exact .inr (.inl (due h hh))

theorem State.passEntry_timers (a : Option Head) {e : QueueEntry} (he : e ∈ s.queue) :
    TimersFrom s (s.passEntry a e) := by
  obtain ⟨-, h⟩ | ⟨-, -, h⟩ | ⟨i, -, -, -, -, ⟨r, -, h⟩ | ⟨-, h⟩⟩ := s.passEntry_cases a e <;> rw [h]
  · exact (State.dropAll_idles a .siteChanged [e]).timers
  · exact .refl s
  · exact ((State.grant_timers he i r).trans (State.dropAll_idles _ _ _).timers).trans
      (State.raiseBypass_timers _ _)
  · exact (State.breakType_idles a i).timers

theorem State.passOver_timers (a : Option Head) (hs : List Head) :
    TimersFrom s (State.passOver a hs s) := by
  induction hs generalizing s with
  | nil => exact .refl s
  | cons h hs ih =>
    unfold State.passOver
    split
    · rename_i e he
      exact (State.passEntry_timers a (List.mem_of_find?_eq_some he)).trans ih
    · exact ih

/-- A pass starts timers at the present time alone, one at most for each entry it takes (R70, R73). -/
theorem State.pass_timers (a : Option Head) : TimersFrom s (s.pass a) := State.passOver_timers _ _

/-! ### The expiry -/

/-- All that an expiry is: the end of the claim, an event or none, and a pass (R77). -/
theorem State.expire_cases (s : State) (h : Head) :
    (∃ c, (s.monitor h).claim = some c ∧
      s.expire h = ((s.endArmed h).eventExpired h c.site).pass none) ∨
    ((s.monitor h).claim = none ∧ s.expire h = (s.endArmed h).pass none) := by
  unfold State.expire
  cases (s.monitor h).claim with
  | none => exact .inr ⟨rfl, rfl⟩
  | some c => exact .inl ⟨c, rfl, rfl⟩

/-- An expiry is a step without a new timer or claim, with its head IDLE, and then a pass (R77). -/
theorem State.expire_parts (s : State) (h : Head) :
    ∃ t, OnlyIdles s t ∧ t.monitor h = Monitor.idle ∧ s.expire h = t.pass none := by
  obtain ⟨e, own⟩ := State.endArmed_idles (s := s) h
  obtain ⟨c, -, hc⟩ | ⟨-, hc⟩ := s.expire_cases h
  · exact ⟨_, e.trans (State.eventExpired_idles h c.site), own, hc⟩
  · exact ⟨_, e, own, hc⟩

/-- An expiry, as a step on the timers. -/
theorem State.expire_timers (h : Head) : TimersFrom s (s.expire h) := by
  obtain ⟨t, e, -, ht⟩ := s.expire_parts h
  exact ht ▸ e.timers.trans (State.pass_timers none)

/-- An expiry leaves fewer timers and waiting claims than there were. -/
theorem State.expire_left {h : Head} {n : Nat} (hn : s.dueEvent h = some n) :
    (s.expire h).timersLeft < s.timersLeft := by
  obtain ⟨t, e, own, ht⟩ := s.expire_parts h
  have stopped : t.dueEvent h = none := State.dueEvent_of_not_armed (by rw [own]; decide)
  have count : (allHeads.countP fun k => (t.dueEvent k).isSome) <
      allHeads.countP fun k => (s.dueEvent k).isSome := by
    have mono : ∀ k, (if (t.dueEvent k).isSome = true then 1 else 0) ≤
        (if (s.dueEvent k).isSome = true then 1 else 0) := fun k => by
      rcases e.due k with d | d <;> simp [d]
    have lt : (if (t.dueEvent h).isSome = true then 1 else 0) <
        (if (s.dueEvent h).isSome = true then 1 else 0) := by simp [stopped, hn]
    simp only [allHeads, List.countP_cons, List.countP_nil]
    have := mono .h0; have := mono .h1; have := mono .h2; have := mono .h3
    revert lt
    cases h <;> intro lt <;> omega
  have fewer : t.timersLeft < s.timersLeft := Nat.add_lt_add_of_le_of_lt e.queue count
  exact ht ▸ Nat.lt_of_le_of_lt (State.pass_timers none).left fewer

theorem State.notBefore_left (k : Nat) : (s.notBefore k).timersLeft = s.timersLeft := rfl

/-- An expiry at its own event leaves fewer timers and waiting claims than there were. -/
theorem State.expireDue_left {d : Due} (hd : s.nextDue = some d) :
    (s.expireDue d).timersLeft < s.timersLeft :=
  State.expire_left (s := s.notBefore (eventTime d.event)) (State.nextDue_eq_some hd).1

/-! ### The passing of time -/

/-- A number of expiries that suffices is as good as any other. -/
theorem State.expireBefore_enough (k : Nat) {n m : Nat} (hn : s.timersLeft ≤ n)
    (hm : s.timersLeft ≤ m) : State.expireBefore k n s = State.expireBefore k m s := by
  induction n generalizing s m with
  | zero =>
    have none_due : s.nextDue = none := by
      cases hd : s.nextDue with
      | none => rfl
      | some d => exact absurd (State.expireDue_left hd) (by omega)
    cases m with
    | zero => rfl
    | succ m => simp only [State.expireBefore, none_due]
  | succ n ih =>
    cases hd : s.nextDue with
    | none => cases m <;> simp only [State.expireBefore, hd]
    | some d =>
      have lt := State.expireDue_left hd
      cases m with
      | zero => omega
      | succ m =>
        simp only [State.expireBefore, hd]
        split
        · exact ih (by omega) (by omega)
        · rfl

/-- Time moves on at once where no claim is due before it. -/
theorem State.advance_of_none_due {k : Nat} (h : ∀ h n, s.dueEvent h = some n → k ≤ eventTime n) :
    s.advance k = s.notBefore k := by
  change (State.expireBefore k (s.queue.length + 3 + 1) s).notBefore k = s.notBefore k
  rw [State.expireBefore]
  cases hd : s.nextDue with
  | none => rfl
  | some d => simp only [if_neg (Nat.not_lt.2 (h _ _ (State.nextDue_eq_some hd).1))]

/-- Where a claim is due before a time, its expiry comes first, and time moves on from there. -/
theorem State.advance_of_due {k : Nat} {d : Due} (hd : s.nextDue = some d)
    (lt : eventTime d.event < k) : s.advance k = (s.expireDue d).advance k := by
  have left := State.expireDue_left hd
  have bound := s.timersLeft_le_bound
  unfold State.advance
  congr 1
  rw [State.expireBefore_enough k (m := s.expiryBound + 1) bound (by omega)]
  simp only [State.expireBefore, hd, if_pos lt]
  exact State.expireBefore_enough k (by omega) State.timersLeft_le_bound

/-- All that the passing of time can do: what clock and expiries keep, it keeps. -/
theorem State.advance_induction {P : State → Prop} (clock : ∀ s k, P s → P (s.notBefore k))
    (expire : ∀ s h n, P s → s.dueEvent h = some n → P (s.expire h)) (k : Nat) (hs : P s) :
    P (s.advance k) := by
  have go : ∀ n (s : State), P s → P (State.expireBefore k n s) := by
    intro n
    induction n with
    | zero => intro s hs; exact hs
    | succ n ih =>
      intro s hs
      simp only [State.expireBefore]
      split
      · rename_i d hd
        split
        · exact ih _ (expire _ _ d.event (clock _ _ hs) (State.nextDue_eq_some hd).1)
        · exact hs
      · exact hs
  exact clock _ _ (go _ _ hs)

/-- Once time has moved on to `k`, no claim is due before `k` (R76). -/
theorem State.advance_due (k : Nat) (h : Head) (n : Nat) (hn : (s.advance k).dueEvent h = some n) :
    k ≤ eventTime n := by
  have go : ∀ m (s : State), s.timersLeft ≤ m → ∀ h n,
      (State.expireBefore k m s).dueEvent h = some n → k ≤ eventTime n := by
    intro m
    induction m with
    | zero =>
      intro s hs h n hn
      have : s.nextDue ≠ none := fun e => by
        rw [State.expireBefore, State.nextDue_eq_none.1 e h] at hn; cases hn
      obtain ⟨d, hd⟩ := Option.ne_none_iff_exists'.1 this
      exact absurd (State.expireDue_left hd) (by omega)
    | succ m ih =>
      intro s hs h n hn
      rw [State.expireBefore] at hn
      split at hn
      · rename_i d hd
        have left := State.expireDue_left hd
        split at hn
        · exact ih _ (by omega) h n hn
        · rename_i hlt
          have le := (State.nextDue_eq_some hd).2 h n hn
          have : eventTime d.event ≤ eventTime n := Nat.mul_le_mul_right _ le
          omega
      · rename_i hd
        rw [State.nextDue_eq_none.1 hd h] at hn; cases hn
  exact go _ s s.timersLeft_le_bound h n hn

/-! ### The fields that expiries and the passing of time leave -/

@[simp] theorem State.expire_pending (h : Head) : (s.expire h).pending = s.pending := by
  obtain ⟨c, -, hc⟩ | ⟨-, hc⟩ := s.expire_cases h <;> simp [hc]

@[simp] theorem State.expire_clock (h : Head) : (s.expire h).clock = s.clock := by
  obtain ⟨c, -, hc⟩ | ⟨-, hc⟩ := s.expire_cases h <;> simp [hc]

@[simp] theorem State.expire_resetHeld (h : Head) : (s.expire h).resetHeld = s.resetHeld := by
  obtain ⟨c, -, hc⟩ | ⟨-, hc⟩ := s.expire_cases h <;> simp [hc]

@[simp] theorem State.expire_estop (h : Head) : (s.expire h).estop = s.estop := by
  obtain ⟨c, -, hc⟩ | ⟨-, hc⟩ := s.expire_cases h <;> simp [hc]

@[simp] theorem State.expire_period (h : Head) : (s.expire h).period = s.period := by
  obtain ⟨c, -, hc⟩ | ⟨-, hc⟩ := s.expire_cases h <;> simp [hc]

@[simp] theorem State.expire_fronts (h : Head) : (s.expire h).fronts = s.fronts := by
  obtain ⟨c, -, hc⟩ | ⟨-, hc⟩ := s.expire_cases h <;> simp [hc]

@[simp] theorem State.expire_board (h : Head) : (s.expire h).board = s.board := by
  obtain ⟨c, -, hc⟩ | ⟨-, hc⟩ := s.expire_cases h <;> simp [hc]

@[simp] theorem State.expire_records (h : Head) : (s.expire h).records = s.records := by
  obtain ⟨c, -, hc⟩ | ⟨-, hc⟩ := s.expire_cases h <;> simp [hc]

@[simp] theorem State.expire_cellLink (h : Head) : (s.expire h).cellLink = s.cellLink := by
  obtain ⟨c, -, hc⟩ | ⟨-, hc⟩ := s.expire_cases h <;> simp [hc]

@[simp] theorem State.advance_pending (k : Nat) : (s.advance k).pending = s.pending :=
  State.advance_induction (P := fun t => t.pending = s.pending) (fun _ _ h => h)
    (fun _ _ _ h _ => (State.expire_pending _).trans h) k rfl

@[simp] theorem State.advance_resetHeld (k : Nat) : (s.advance k).resetHeld = s.resetHeld :=
  State.advance_induction (P := fun t => t.resetHeld = s.resetHeld) (fun _ _ h => h)
    (fun _ _ _ h _ => (State.expire_resetHeld _).trans h) k rfl

@[simp] theorem State.advance_estop (k : Nat) : (s.advance k).estop = s.estop :=
  State.advance_induction (P := fun t => t.estop = s.estop) (fun _ _ h => h)
    (fun _ _ _ h _ => (State.expire_estop _).trans h) k rfl

@[simp] theorem State.advance_period (k : Nat) : (s.advance k).period = s.period :=
  State.advance_induction (P := fun t => t.period = s.period) (fun _ _ h => h)
    (fun _ _ _ h _ => (State.expire_period _).trans h) k rfl

@[simp] theorem State.advance_fronts (k : Nat) : (s.advance k).fronts = s.fronts :=
  State.advance_induction (P := fun t => t.fronts = s.fronts) (fun _ _ h => h)
    (fun _ _ _ h _ => (State.expire_fronts _).trans h) k rfl

@[simp] theorem State.advance_board (k : Nat) : (s.advance k).board = s.board :=
  State.advance_induction (P := fun t => t.board = s.board) (fun _ _ h => h)
    (fun _ _ _ h _ => (State.expire_board _).trans h) k rfl

@[simp] theorem State.advance_records (k : Nat) : (s.advance k).records = s.records :=
  State.advance_induction (P := fun t => t.records = s.records) (fun _ _ h => h)
    (fun _ _ _ h _ => (State.expire_records _).trans h) k rfl

@[simp] theorem State.advance_cellLink (k : Nat) : (s.advance k).cellLink = s.cellLink :=
  State.advance_induction (P := fun t => t.cellLink = s.cellLink) (fun _ _ h => h)
    (fun _ _ _ h _ => (State.expire_cellLink _).trans h) k rfl

end Sys2Proof.Machine
end

