-- ==== Sys2Proof/Tests/Slice0.lean ====
section
/-! SUPPORT. Tests of the model against the manual's worked figures, the smoke test of well-formedness,
and, for each statement with hypotheses, states and operands that meet them. -/

namespace Sys2Proof.Tests

open Sys2Proof Sys2Proof.Machine

/-! ### Small states -/

/-- The state one command leaves. -/
def after (c : Instr) (s : State) : State :=
  match exec c s with
  | .next t => t
  | .fault _ => s
  | .refused _ => s

/-- A link that is UP. -/
def upLink : LinkState := { LinkState.reset with up := true }

/-- The part after reset, its links UP. -/
def base : State :=
  { State.reset with cellLink := upLink, headLinks := ⟨upLink, upLink, upLink, upLink⟩ }

/-- The record of type 5 (section 2.9, section 5.13). -/
def type5 : TypeRecord :=
  { partCode := 40512, pinTotal := 200, contactThreshold := 2000, confirmCount := 3
    approachLimit := 10000
    groups := [⟨0, 40, 300, 900, 300⟩, ⟨800, 120, 300, 900, 300⟩, ⟨1500, 40, 300, 900, 300⟩]
    seatStart := 2000, seatSearch := 800, slopeThreshold := 2000, seatWindow := 4
    forceMax := 250000, overtravelMax := 50, dwell := 200, tiltLimit := 150, tiltFloor := 20000
    stallTime := 50, strokeLimit := 50 }

/-- A READY type with no users. -/
def ready5 : TypeSlot :=
  { state := .ready, users := 0, faults := 0, active := some (.fresh type5), waiting := none }

/-- A site of type 5. -/
def site (keepOut : List (Fin 32)) (st : SiteState) : SiteEntry :=
  { typeNo := 5, x := 1200, y := 3400, keepOut := keepOut, state := st, attempts := 0, last := none }

/-- Board 7,301 open with type 5 READY, site 10 LOADED on zones 4 and 5, site 11 on 5 and 6, and site
12 EMPTY on 6 and 7 (section 3.7). -/
def opened : State :=
  { base with
    library := Vector.replicate 48 TypeSlot.reset |>.set 5 ready5
    board := { state := .isOpen, serial := 7301, bypassLimit := 4, holdTime := 50 }
    sites := ((Vector.replicate 96 none).set 10 (some (site [4, 5] .loaded))).set 11
      (some (site [5, 6] .loaded)) |>.set 12 (some (site [6, 7] .empty)) }

/-- The working copy of type 5. -/
def copy5 : WorkingCopy := { typeNo := 5, fields := type5 }

/-- H0's claim on site 10. -/
def claim10 : Claim := { site := 10, restrike := false }

/-- A front end that may take START (section 5.13). -/
def steady (h : Head) : FrontEnd :=
  { FrontEnd.reset h with
    homed := true, position := 12500
    tare := { value := 300, candidate := 300, run := 100, state := .stable }
    latest := { SampleRecord.reset h with gross := 340, net := 40, position := 12500 } }

/-- H0 ARMED on site 10, granted at 1,234 ms. -/
def armed : State :=
  { opened with
    clock := 1234000
    library := opened.library.set 5 { ready5 with users := 1 }
    sites := opened.sites.set 10 (some (site [4, 5] (.claimed .h0 .loaded)))
    zones := (opened.zones.set 4 (some .h0)).set 5 (some .h0)
    fronts := opened.fronts.set .h0 (steady .h0)
    monitors := opened.monitors.set .h0
      { state := .armed, claim := some claim10, grantTime := some 1234000, slot := true
        copy := some copy5, permit := false, stroke := none } }

/-- The stroke variables as START sets them. -/
def begun : Stroke := Stroke.begin type5 .us1000 7301 0 (steady .h0)

/-- H0 in a stroke state on site 10. -/
def pressing (st : HeadState) (k : Stroke) : State :=
  { armed with
    sites := armed.sites.set 10 (some (site [4, 5] (.pressing .h0 .loaded)))
    monitors := armed.monitors.set .h0
      { state := st, claim := some claim10, grantTime := none, slot := true, copy := some copy5
        permit := true, stroke := some k } }

/-- H0 in APPROACH. -/
def approach : State := pressing .approach begun

/-- H0 in ENGAGE from position 12,500 on. -/
def engage : State := pressing .engage { begun with contactPosition := some 12500 }

/-- H0 in SEATING, one sample before its verdict. -/
def seating : State := pressing .seating
  { begun with
    contactPosition := some 10090, seatDepth := some 2410, dwell := 199, dwellLimit := 200
    eval := { begun.eval with maxDepth := some 2410, overtravel := some 0 } }

/-- H0 HALTED by a stroke aborted before contact, its record due. -/
def halted : State :=
  { opened with
    zones := (opened.zones.set 4 (some .h0)).set 5 (some .h0)
    monitors := opened.monitors.set .h0
      { state := .halted, claim := some claim10, grantTime := none, slot := true
        copy := some copy5, permit := false
        stroke := some (begun.aborted .h0 claim10 copy5 0 false .headStop []) } }

/-- H0 in RETRACT after a verdict. -/
def retract : State :=
  { opened with
    zones := (opened.zones.set 4 (some .h0)).set 5 (some .h0)
    monitors := opened.monitors.set .h0
      { state := .retract, claim := some claim10, grantTime := none, slot := false
        copy := some copy5, permit := false, stroke := some begun } }

/-- H0 ARMED on site 10 and H1 WAITING for site 11, whose zone 5 H0 holds (section 4.12). -/
def waiting : State :=
  { armed with
    queue := [{ head := .h1, claim := { site := 11, restrike := false }, bypass := 0 }]
    monitors := armed.monitors.set .h1 { Monitor.idle with state := .waiting } }

/-- An open board and H1 WAITING alone. -/
def onlyWaiting : State :=
  { opened with
    queue := [{ head := .h1, claim := { site := 11, restrike := false }, bypass := 0 }]
    monitors := opened.monitors.set .h1 { Monitor.idle with state := .waiting } }

/-- A record with one flipped bit, and one with two in a word. -/
def oneFlip : StoredRecord := { fields := type5, flips := [(3, 7)] }
def twoFlips : StoredRecord := { fields := type5, flips := [(3, 7), (3, 8)] }

/-- H1 WAITING alone on a site of type 5, its slot as given. -/
def waitingOn (slot : TypeSlot) : State := onlyWaiting.setType 5 slot

/-- A sample whose four corners return one value each, three times. -/
def steadyConv (a b c d : Int) : PerCorner Conversions :=
  let one := fun (v : Int) =>
    (⟨BitVec.ofInt 20 v, BitVec.ofInt 20 v, BitVec.ofInt 20 v⟩ : Conversions)
  ⟨one a, one b, one c, one d⟩

/-! ### Well-formed commands -/

set_option maxRecDepth 8000 in
theorem test_ill_formed_invalidFrame :
    Instr.wellFormed (.invalidFrame .cell [⟨1, true⟩, ⟨0, true⟩, ⟨0, true⟩, ⟨107, true⟩]) = false := by
  decide

set_option maxRecDepth 8000 in
theorem test_ill_formed_downLinkDiscard :
    Instr.wellFormed (.downLinkDiscard .cell 1 0 []) = false ∧
    Instr.wellFormed (.downLinkDiscard .cell 2 0 (List.replicate 251 0)) = false := by decide

theorem test_ill_formed_unknownRequest :
    Instr.wellFormed (.unknownRequest (.head .h0) 22 0 []) = false ∧
    Instr.wellFormed (.unknownRequest .cell 22 0 []) = true := by decide

set_option maxRecDepth 8000 in
theorem test_ill_formed_payload :
    Instr.wellFormed (.loadType 0 (List.replicate 251 0)) = false ∧
    Instr.wellFormed (.overrunDiscard .cell 2 0 (List.replicate 251 0)) = false ∧
    Instr.wellFormed (.loadType 0 (List.replicate 250 0)) = true := by decide

/-! ### The manual's worked figures: sensing (section 1.10) -/

/-- Section 1.10: median 48,000, spread 650, force 24,000. -/
theorem test_median_and_spread :
    median ⟨47990, 48640, 48000⟩ = 48000 ∧ spread ⟨47990, 48640, 48000⟩ = 650 ∧
    cornerForce 1024 Corner.reset ⟨47990, 48640, 48000⟩ = 24000 := by decide

/-- Section 1.10: the noisy sample keeps the held value and raises the run. -/
theorem test_noisy_corner :
    cornerEntry 1024 { gain := 2048, held := 24000, noiseRun := 0 } ⟨47100, 49300, 48000⟩ =
      { force := 24000, saturated := false, noisy := true, noisyRun := false } ∧
    cornerAfter 1024 { gain := 2048, held := 24000, noiseRun := 0 } ⟨47100, 49300, 48000⟩ =
      { gain := 2048, held := 24000, noiseRun := 1 } := by decide

/-- Section 1.10: 1.5 becomes 2, -1.5 becomes -2, 0.0012 becomes 0. -/
theorem test_rounding : scaleForce 3 2048 = 2 ∧ scaleForce (-3) 2048 = -2 ∧ scaleForce 5 1 = 0 := by
  decide

/-- Section 1.10: gross 95,400, net 95,100 and tilt 28 on a stroke sample of type 5. -/
theorem test_stroke_sample_figures :
    let r := engage.sampleOf .h0 (steadyConv 48000 46200 45600 51000)
    r.gross = 95400 ∧ r.net = 95100 ∧ r.tilt = some 28 := by decide

/-- Section 1.10: the tracker after power-up, and the fixture that is lifted. -/
theorem test_tare_tracker :
    ({ value := 0, candidate := 300, run := 99, state := .settling } : Tare).step 50 100 305 =
      { value := 300, candidate := 300, run := 100, state := .stable } ∧
    ({ value := 300, candidate := 300, run := 100, state := .stable } : Tare).step 50 100 1500 =
      { value := 300, candidate := 1500, run := 0, state := .settling } ∧
    ({ value := 300, candidate := 305, run := 99, state := .settling } : Tare).step 50 100 305 =
      { value := 300, candidate := 305, run := 100, state := .stable } := by decide

/-- Section 1.10: the first sample after power-up. -/
theorem test_sampleComplete_idle :
    ((after (.sampleComplete .h0 (steadyConv 600 0 0 0)) base).front .h0).tare =
      { value := 0, candidate := 300, run := 0, state := .settling } := by decide

/-- Section 5.13: the confirming sample of the contact. -/
theorem test_sampleComplete_contact :
    let k := { begun with contactRun := 2, candidate := some 18640 }
    let s := (pressing .approach k).setFront .h0 { steady .h0 with position := 18644 }
    let t := after (.sampleComplete .h0 (steadyConv 6800 0 0 0)) s
    (t.monitor .h0).state = .engage ∧
      ((t.monitor .h0).stroke.bind (·.contactPosition)) = some 18640 := by decide

/-- Section 1.4: one phase down adds 1; a change of both channels is a fault. -/
theorem test_encoderTransition :
    ((after (.encoderTransition .h0 ⟨true, false⟩) base).front .h0).position = 1 ∧
    ((after (.encoderTransition .h0 ⟨false, true⟩) base).front .h0).position = -1 ∧
    ((after (.encoderTransition .h0 ⟨true, true⟩) base).front .h0).encoderFault = true := by decide

/-! ### Envelopes, boards and sites (sections 2.9 and 3.7) -/

/-- Section 2.9: type 5 passes; a seat zone start of 1,700 fails check 14, 30 pins in G3 check 13. -/
theorem test_type5_checks :
    firstFailure type5 = none ∧
    firstFailure { type5 with seatStart := 1700 } = some ⟨14, 0⟩ ∧
    firstFailure { type5 with groups :=
      [⟨0, 40, 300, 900, 300⟩, ⟨800, 120, 300, 900, 300⟩, ⟨1500, 30, 300, 900, 300⟩] } =
        some ⟨13, 0⟩ := by decide

/-- The LOAD_TYPE payload of type 5, written out by R178 from the figures of section 2.9. -/
def payload5 : List Byte :=
  [5, 0, 0, 158, 64, 0, 200, 7, 208, 3, 39, 16, 3, 7, 208, 3, 32, 7, 208, 4, 0, 3, 208, 144, 0, 50,
    0, 200, 0, 150, 0, 0, 78, 32, 0, 50, 0, 50]
  ++ [0, 0, 0, 40, 1, 44, 3, 132, 1, 44] ++ [3, 32, 0, 120, 1, 44, 3, 132, 1, 44]
  ++ [5, 220, 0, 40, 1, 44, 3, 132, 1, 44]

theorem test_type_layout : recordOf payload5 = type5 ∧ typeBytes 5 type5 = payload5 := by decide

/-- Section 2.9: type 5 was ABSENT and becomes READY. -/
theorem test_loadType :
    ((after (.loadType 0 (typeBytes 5 type5)) base).typeSlot 5).state = .ready := by decide

/-- Section 2.9: READ_TYPE corrects the one flipped bit and counts it. -/
theorem test_readType :
    let s := after (.memoryWordFault 5 .active 3 7) opened
    ((s.typeSlot 5).active.map (·.flips)) = some [(3, 7)] ∧
    ((after (.readType 0 [5]) s).typeSlot 5).faults = 1 ∧
    ((after (.readType 0 [5]) s).typeSlot 5).active = some (.fresh type5) := by decide

/-- R34: a read finds type 5 unreadable while H1 waits on it: BROKEN, and the claim is dropped. -/
theorem test_readType_breaks :
    let t := after (.readType 0 [5]) (waitingOn { ready5 with active := some twoFlips })
    (t.typeSlot 5).state = .broken ∧ t.queue = [] ∧ t.monitor .h1 = Monitor.idle ∧
      t.headLinks.h1.out = [eventFrame 65 [11, 1]] ∧
      t.cellLink.out = [{ kind := 170, tag := 0, payload := [10] }] := by decide

/-- R37: a type that a site names is not purged. -/
theorem test_purgeType :
    ((after (.purgeType 0 [5]) opened).typeSlot 5).state = .ready ∧
    ((after (.purgeType 0 [5]) { opened with sites := base.sites }).typeSlot 5).state = .absent := by
  decide

/-- Section 3.7: board 7,301 with bypass limit 4, hold time 50 and period code 2. -/
theorem test_boardBegin :
    (after (.boardBegin 0 [0, 0, 28, 133, 4, 50, 2]) base).board =
      { state := .isOpen, serial := 7301, bypassLimit := 4, holdTime := 50 } ∧
    (after (.boardBegin 0 [0, 0, 28, 133, 16, 0, 3]) base).board.bypassLimit = 15 ∧
    (after (.boardBegin 0 [0, 0, 28, 133, 16, 0, 3]) base).period = .us2000 := by decide

/-- Section 3.7: site 10 at (1,200, 3,400) on zones 4 and 5; a zone given twice is refused. -/
theorem test_siteDefine :
    ((after (.siteDefine 0 [20, 5, 4, 176, 13, 72, 2, 5, 4]) opened).site 20) =
      some (site [4, 5] .empty) ∧
    ((after (.siteDefine 0 [20, 5, 4, 176, 13, 72, 2, 5, 5]) opened).site 20) = none := by decide

/-- Section 3.7: LOAD makes an EMPTY site LOADED. -/
theorem test_load : (after (.load 0 [12]) opened).site 12 = some (site [6, 7] .loaded) := by decide

/-- Section 3.7: UNLOAD of a claimed site revokes the claim and frees its zones. -/
theorem test_unload :
    let t := after (.unload 0 [10]) armed
    t.site 10 = some (site [4, 5] .empty) ∧ t.monitor .h0 = Monitor.idle ∧ t.holder 4 = none ∧
      (t.typeSlot 5).users = 0 := by decide

/-- R48, R54, R176: the reply to READ_SITE of site 10, LOADED with type 5 at (1,200, 3,400) on zones 4
and 5, and of a site that is UNDEFINED. -/
theorem test_readSite :
    ((after (.readSite 0 [10]) opened).cellLink.out.map (·.payload)) =
      [[0, 10, 2, 1, 5, 1, 4, 176, 13, 72, 1, 2, 4, 5, 1, 0, 0, 0, 0, 0, 0, 0, 0, 0, 0, 0, 0, 0, 0, 0]] ∧
    ((after (.readSite 0 [95]) opened).cellLink.out.map (·.payload)) =
      [[0, 95, 0, 0, 0, 0, 0, 0, 0, 0, 0, 0, 0, 0, 0, 0, 0, 0, 0, 0, 0, 0, 0, 0, 0, 0, 0, 0]] := by
  decide

/-- R44: the summary of a board with three sites. -/
theorem test_boardEnd :
    ((after (.boardEnd 9 []) opened).cellLink.out) =
      [{ kind := 162, tag := 9, payload := [0, 0, 0, 28, 133, 3, 1, 2, 0, 0, 0] }] := by decide

/-- R45: BOARD_ABORT with a stroke in progress leaves the board ABORTING. -/
theorem test_boardAbort :
    (after (.boardAbort 0 []) approach).board.state = .aborting ∧
    (after (.boardAbort 0 []) armed).board.state = .noBoard := by decide

/-! ### Claims (section 4.12) -/

/-- Section 4.12: the first claim is granted, and takes zones 4 and 5. -/
theorem test_claim_granted :
    let t := after (.claim .h0 0 [10, 1, 0]) opened
    (t.monitor .h0).state = .armed ∧ t.holder 4 = some .h0 ∧ t.holder 5 = some .h0 := by decide

/-- Section 4.12: a claim on a held zone waits; one not to wait is refused with ZONE_BUSY. -/
theorem test_claim_waits :
    ((after (.claim .h1 0 [11, 1, 0]) armed).headLinks.h1.out) =
      [{ kind := 145, tag := 0, payload := [0, 11, 1, 1, 1] }] ∧
    ((after (.claim .h1 0 [11, 0, 0]) armed).headLinks.h1.out) =
      [{ kind := 145, tag := 0, payload := [20] }] := by decide

/-- H1 WAITING for site 11 and H2 behind it for a site, no zone held. -/
def twoWaiting (n : Fin 96) : State :=
  { onlyWaiting with
    queue := onlyWaiting.queue ++
      [{ head := .h2, claim := { site := n, restrike := false }, bypass := 0 }]
    monitors := onlyWaiting.monitors.set .h2 { Monitor.idle with state := .waiting } }

/-- R70: a pass grants the oldest entry, drops the other claim for its site with SITE_CHANGED, and
leaves one whose zone it has just taken; it drops an entry for a site that is not LOADED. -/
theorem test_pass :
    (let t := (twoWaiting 11).pass none;
      (t.monitor .h1).state = .armed ∧ t.monitor .h2 = Monitor.idle ∧ t.queue = [] ∧
        t.headLinks.h2.out = [eventFrame 65 [11, 0]]) ∧
    (let t := (twoWaiting 10).pass none;
      (t.monitor .h1).state = .armed ∧ t.queue.map (fun e => (e.head, e.bypass)) = [(.h2, 0)]) ∧
    (let t := (twoWaiting 12).pass none;
      t.monitor .h2 = Monitor.idle ∧ t.headLinks.h2.out = [eventFrame 65 [12, 0]]) := by decide

/-- R79: RELEASE of H0's claim lets H1's waiting claim be granted. -/
theorem test_release :
    let t := after (.release .h0 0 []) waiting
    t.monitor .h0 = Monitor.idle ∧ (t.monitor .h1).state = .armed ∧ t.holder 4 = none := by decide

/-- Section 4.12: granted at 1,234 ms with a hold of 5,000 ms, the claim expires at 6,240 ms. -/
theorem test_holdTimerExpiry :
    ((after (.holdTimerExpiry .h0 623) armed).monitor .h0).state = .armed ∧
    ((after (.holdTimerExpiry .h0 624) armed).monitor .h0).state = .idle := by decide

/-- Section 4.12: the claim does not outlive the event at 6,240 ms: by a later event it has expired at its
own, and the claim granted in its pass was granted then. In an idle step it is armed up to 6,240 ms, and
gone a microsecond later. -/
theorem test_holdTimerExpiry_itself :
    (let t := after (.holdTimerExpiry .h2 700) waiting;
      t.monitor .h0 = Monitor.idle ∧ (t.monitor .h1).grantTime = some 6240000 ∧
        t.clock = 7000000) ∧
    ((({ armed with clock := 6239999 } : State).tick).monitor .h0).state = .armed ∧
    ((({ armed with clock := 6240000 } : State).tick).monitor .h0).state = .idle := by decide

/-! ### Strokes (sections 5.13, 6.9, 7.10) -/

/-- Section 5.13: the reply to START: site 10, no restrike, 12,500, and the counts. -/
theorem test_start :
    ((after (.start .h0 0 []) armed).headLinks.h0.out) =
      [{ kind := 147, tag := 0
         payload := [0, 10, 0, 0, 0, 48, 212, 0, 0, 19, 136, 0, 0, 0, 50, 0, 0, 0, 200] }] := by
  decide

/-- Section 5.13: the counts of type 5 at the other periods. -/
theorem test_limit_counts :
    samplesOf .us250 5000 = 20000 ∧ samplesOf .us500 50 = 100 ∧ samplesOf .us2000 200 = 100 := by
  decide

/-- Section 6.9: G1's step of 24,100 passes with mean 602; G3's of 11,400 is LOW, deficit 2. -/
theorem test_group_steps :
    ((Evaluation.initial type5.groups).closeChain type5.groups 0 24100).results =
      [{ index := 1, status := .pass, step := some 24100, mean := some 602, deficit := none }] ∧
    chainResults (judge false 11400 12000 36000) 11400 (Int.tdiv 11400 40)
        (some (deficitOf [⟨1500, 40, 300, 900, 300⟩] 11400)) 3 [⟨1500, 40, 300, 900, 300⟩] =
      [{ index := 3, status := .low, step := some 11400, mean := some 285, deficit := some 2 }] := by
  decide

/-- R116, R117: type 5's groups at D = 1,100, 1,500 and 1,800 reached in one sample: the steps of G1
and G2 close their chain, leave it open to G3, and G3's closes all three. An abort keeps an open chain
(R109). -/
theorem test_chain :
    (begun.eval.takeGroups type5.groups (some 1099) 1100 90000).results.map (·.status) =
      [.jointPass, .jointPass] ∧
    (begun.eval.takeGroups type5.groups (some 1499) 1500 90000).chain = some (1, 3) ∧
    ((begun.eval.takeGroups type5.groups (some 1499) 1500 90000).complete type5.groups false).chain =
      some (1, 3) ∧
    (begun.eval.takeGroups type5.groups (some 1799) 1800 90000).results.length = 3 := by decide

/-- Section 6.9: type 9's chain at a step of 30,500 has the estimate 8; at 33,000 the formula gives 0
(log 27). -/
theorem test_joint_deficit :
    let gs : List Group := [⟨0, 60, 250, 800, 200⟩, ⟨200, 100, 200, 700, 200⟩]
    judge true 33000 (lowerForce gs) (upperForce gs) = .jointLow ∧
      deficitOf gs 30500 = 8 ∧ deficitOf gs 33000 = 0 := by decide

/-- Section 6.9: the slopes 1,437, 1,875 and 5,000. -/
theorem test_seat_slope :
    seatSlope 1 [(2398, 106500), (2406, 118000)] 2406 118000 = some 1437 ∧
    seatSlope 1 [(2400, 108000), (2408, 123000)] 2408 123000 = some 1875 ∧
    seatSlope 1 [(2402, 110000), (2410, 150000)] 2410 150000 = some 5000 := by decide

/-- Section 7.10: three causes on one sample of a seated stroke. -/
theorem test_causes :
    strokeCauses .seating type5 false
        { begun with eval := { begun.eval with overtravel := some 65 } }
        { SampleRecord.reset .h1 with net := 262000, gross := 262300, tilt := some 171 } =
      [.overforce, .tilt, .overtravel] := by decide

/-- R100: the verdict of a stroke whose dwell is complete. -/
theorem test_sampleComplete_verdict :
    let t := after (.sampleComplete .h0 (steadyConv 600 0 0 0)) seating
    (t.monitor .h0).state = .retract ∧ t.records.map (·.outcome) = [.pass] ∧
      (t.site 10).map (·.state) = some (.seated 2410) ∧ (t.typeSlot 5).users = 0 := by decide

/-- R102: STOP in a stroke state halts the head with HEAD_STOP. -/
theorem test_stop :
    let t := after (.stop .h0 0 []) approach
    (t.monitor .h0).state = .halted ∧ primaryCause (t.monitor .h0) = some .headStop ∧
      (t.site 10).map (·.state) = some .loaded := by decide

/-- R101: RETRACTED frees the two zones. -/
theorem test_retracted :
    let t := after (.retracted .h0 0 []) retract
    t.headLinks.h0.out = [{ kind := 149, tag := 0, payload := [0, 2] }] ∧ t.holder 4 = none := by
  decide

/-- R140: HALT_ACK appends the record due. -/
theorem test_haltAck :
    let t := after (.haltAck .h0 0 []) halted
    t.headLinks.h0.out = [{ kind := 150, tag := 0, payload := [0, 14, 2, 1] }] ∧
      t.records.map (·.outcome) = [.abort] ∧ t.monitor .h0 = Monitor.idle := by decide

/-- R157: TAKE_RECORD of an empty queue. -/
theorem test_takeRecord :
    ((after (.takeRecord 0 []) armed).cellLink.out) =
      [{ kind := 171, tag := 0, payload := [24, 0, 1] }] := by decide

/-! ### Requests and inputs -/

/-- R103: HOME sets the counter to 0 and the homed flag. -/
theorem test_home :
    ((after (.home .h1 0 []) base).front .h1).homed = true ∧
    ((after (.home .h0 0 []) armed).front .h0).position = 12500 := by decide

/-- R18: a gain of 0 and a hysteresis above 2,000 are clamped. -/
theorem test_configureHead :
    let t := after (.configureHead 0 [1, 0, 0, 8, 0, 8, 0, 8, 0, 4, 0, 7, 209, 2]) base
    (t.front .h1).corners.c0.gain = 1 ∧ (t.front .h1).hysteresis = 2000 ∧
      (t.front .h1).stability = .ms200 ∧ (t.cellLink.out.map (·.payload.take 1)) = [[1]] := by decide

set_option maxRecDepth 8000 in
/-- R174: STATUS on the cell link has 239 fields bytes less 4 for each entry that does not wait. -/
theorem test_cellStatus :
    ((after (.cellStatus 0 []) base).cellLink.out.map (·.payload.length)) = [224] := by decide

/-- R104, R176: STATUS of an ARMED head up to the stroke progress: ARMED, PERMIT inactive, ESTOP
released, OPEN, the claim on site 10, no queue position, zones 4 and 5, type 5 of part 40,512, and 501
timebase events from 1,234 ms to 6,240 ms. -/
theorem test_status :
    ((after (.status .h0 0 []) armed).headLinks.h0.out.map (·.payload.take 23)) =
      [[0, 2, 0, 0, 1, 1, 10, 0, 0, 0, 2, 4, 5, 1, 5, 0, 0, 158, 64, 1, 1, 245, 0]] := by decide

/-- R83: ESTOP revokes an armed claim, and aborts a stroke. -/
theorem test_estopAsserted :
    ((after .estopAsserted armed).monitor .h0).state = .idle ∧
    ((after .estopAsserted approach).monitor .h0).state = .halted ∧
    (after .estopReleased (after .estopAsserted armed)).estop = false := by decide

/-- R20: RESET asserted, then released with the phases present. -/
theorem test_reset :
    (after .hardwareReset armed).monitor .h0 = Monitor.idle ∧
    ((after (.resetReleased ⟨⟨true, true⟩, ⟨true, true⟩, ⟨true, true⟩, ⟨true, true⟩⟩)
      (after .hardwareReset armed)).front .h2).phase = ⟨true, true⟩ := by decide

/-- R175: WARM_RESET closes the board, and keeps the types. -/
theorem test_warmReset :
    (after (.warmReset 0 []) armed).board = Board.closed ∧
    ((after (.warmReset 0 []) armed).typeSlot 5).state = .ready ∧
    ((after (.warmReset 0 []) armed).typeSlot 5).users = 0 := by decide

/-! ### Links (section 9.10) -/

/-- Section 9.10: the check byte of HELLO is 107. -/
theorem test_check_byte : checkByte [1] = 7 ∧ checkByte [1, 0] = 21 ∧ checkByte [1, 0, 0] = 107 := by
  decide

/-- Section 9.10: HELLO opens a DOWN link; its reply is 129, tag 0, and 0, the number, 0. -/
theorem test_hello :
    ((after (.hello (.head .h2) 0 []) State.reset).headLinks.h2.out) =
      [{ kind := 129, tag := 0, payload := [0, 2, 0] }] := by decide

set_option maxRecDepth 8000 in
/-- Section 9.10: the frame 1, 0, 0, 107 is a HELLO; with another check byte it is discarded. -/
theorem test_invalidFrame :
    ((after (.invalidFrame .cell [⟨1, true⟩, ⟨0, true⟩, ⟨0, true⟩, ⟨107, true⟩])
      State.reset).cellLink.up) = true ∧
    ((after (.invalidFrame .cell [⟨1, true⟩, ⟨0, true⟩, ⟨0, true⟩, ⟨106, true⟩])
      State.reset).cellLink.up) = false := by decide

/-- Section 9.10: a head link broken in a stroke: HALTED, with LINK_DOWN. -/
theorem test_linkBreak :
    let t := after (.linkBreak (.head .h0)) engage
    (t.link (.head .h0)) = { LinkState.reset with up := false } ∧
      primaryCause (t.monitor .h0) = some .linkDown ∧ t.holder 4 = some .h0 := by decide

/-- R166: a request on a DOWN link is discarded unanswered. -/
theorem test_downLinkDiscard :
    ((after (.downLinkDiscard (.head .h0) 19 0 []) State.reset).headLinks.h0) = LinkState.reset := by
  decide

/-- Sixteen frames wait on H0's link. -/
def full : State :=
  base.setLink (.head .h0) { upLink with out := List.replicate 16 (eventFrame 64 []) }

/-- R171: a request where 16 frames wait sets the overrun flag, which the next frame sent carries. -/
theorem test_overrunDiscard :
    ((after (.overrunDiscard (.head .h0) 2 0 []) full).headLinks.h0.overrun) = true ∧
    (((after (.frameTransmitStart (.head .h0))
      (after (.overrunDiscard (.head .h0) 2 0 []) full)).headLinks.h0.tx.map
        (·.bytes.take 4))) = some [64, 0, 1, 128] := by decide

/-- R172: a kind that is no request is answered UNKNOWN_REQUEST with the kind. -/
theorem test_unknownRequest :
    ((after (.unknownRequest .cell 99 5 []) base).cellLink.out) =
      [{ kind := 227, tag := 5, payload := [2, 99] }] := by decide

/-- R170: the end of a transmission frees the line, 40 µs after its start for a frame of 4 bytes. -/
theorem test_frameTransmissionEnd :
    let s := base.setLink .cell { upLink with tx := some { bytes := [1, 2, 3, 4], since := 100 } }
    (after (.frameTransmissionEnd .cell) s).cellLink.tx = none ∧
      (after (.frameTransmissionEnd .cell) s).clock = 140 := by decide

/-! ### Witnesses

For each statement with hypotheses, states and operands that meet those of each of its clauses. -/

/-- A payload of the greatest length. -/
def longest : List Byte := List.replicate 250 0

/-- The refusal clauses of every request whose payload is empty. -/
theorem longest_length : longest.length = 250 := List.length_replicate

theorem witness_longest : longest ≠ [] ∧ longest.length ≤ 250 := by
  refine ⟨fun h => ?_, Nat.le_of_eq longest_length⟩
  have := congrArg List.length h
  rw [longest_length] at this
  exact absurd this (by decide)

theorem witness_StepRunsTheFrontCommand :
    ({ base with pending := [.estopAsserted, .estopReleased] } : State).pending =
      .estopAsserted :: [.estopReleased] ∧ base.pending = [] ∧ base.quietUntil (base.clock + 1) :=
  ⟨by decide, by decide, fun h _ _ armed => absurd armed (by cases h <;> decide)⟩

/-- RESET held. -/
def held : State := after .hardwareReset armed

theorem witness_HardwareResetClearsTheBlocks : held.resetHeld = true ∧ base.resetHeld = false := by
  decide

/-- Conversions of a range of 1,024 and of one more, and at the rails. -/
def quiet : Conversions := ⟨47990, 48000, 49014⟩
def noisy : Conversions := ⟨47990, 48000, 49015⟩
def railed : Conversions := ⟨BitVec.ofInt 20 (-524288), BitVec.ofInt 20 (-524288),
  BitVec.ofInt 20 (-524287)⟩

theorem witness_CornerForceRoundsHalfAwayFromZero :
    (1 ≤ ({ gain := 1, held := 0, noiseRun := 0 } : Corner).gain ∧
      ({ gain := 65535, held := 0, noiseRun := 0 } : Corner).gain ≤ 65535) ∧
    (isNoisy 1024 quiet = false ∧ 0 ≤ median quiet) ∧
    (isNoisy 1024 ⟨0, 0, 0⟩ = false ∧ 0 ≤ median ⟨0, 0, 0⟩) ∧
    (isNoisy 1024 railed = false ∧ median railed < 0) ∧ isNoisy 1024 noisy = true := by decide

theorem witness_CornerIsClassified :
    (cornerEntry 1024 Corner.reset noisy).noisy = true ∧
    ((cornerEntry 1024 Corner.reset railed).noisy = false ∧
      (cornerEntry 1024 Corner.reset railed).saturated = true) ∧
    ((cornerEntry 1024 Corner.reset quiet).noisy = false ∧
      (cornerEntry 1024 Corner.reset quiet).saturated = false) := by decide

/-- Corner entries of the forces given. -/
def forces (a b c d : Int) : PerCorner CornerEntry :=
  ⟨⟨a, false, false, false⟩, ⟨b, false, false, false⟩, ⟨c, false, false, false⟩,
    ⟨d, false, false, false⟩⟩

theorem witness_TiltIsTheCornerRangePerMille :
    (((engage.monitor .h0).copy = some copy5 ∧ (engage.monitor .h0).state = .engage) ∧
      (copy5.fields.tiltFloor : Int) ≤ [5000, 5000, 5000, (5000 : Int)].sum ∧
      0 < [5000, 5000, 5000, (5000 : Int)].sum) ∧
    ((armed.monitor .h0).state = .armed) ∧
    [5000, 5000, 5000, (4999 : Int)].sum < copy5.fields.tiltFloor ∧
    [0, 0, 0, (0 : Int)].sum ≤ 0 := by decide

/-- A tracker at T = 300, Q = 305. -/
def tracker (run : Nat) : Tare := { value := 300, candidate := 305, run := run, state := .settling }

theorem witness_TareTrackerStep :
    (((tracker 100).run ≤ 100) ∧ 50 < (356 - (tracker 100).candidate).natAbs) ∧
    (((355 : Int) - (tracker 98).candidate).natAbs ≤ 50 ∧ (tracker 98).run + 1 < 100) ∧
    ((tracker 99).run + 1 = 100 ∧ (tracker 99).candidate.natAbs ≤ 50000) ∧
    ((50001 - ({ tracker 99 with candidate := 50001 } : Tare).candidate).natAbs ≤ 50 ∧
      50000 < ({ tracker 99 with candidate := 50001 } : Tare).candidate.natAbs) ∧
    (({ tracker 99 with candidate := 50000 } : Tare).candidate.natAbs ≤ 50000) ∧
    ((tracker 100).run = 100 ∧ (tracker 100).value.natAbs ≤ 50000) ∧
    (({ tracker 99 with value := -50000 } : Tare).value.natAbs ≤ 50000) := by decide

theorem witness_TareTrackerStep_stroke :
    (approach.monitor .h0).state.inStroke = true ∧
    ∃ t, exec (.sampleComplete .h0 (steadyConv 600 0 0 0)) approach = .next t := ⟨by decide, _, rfl⟩

theorem witness_TareTrackerRestarts :
    (HeadState.idle.inStroke = false ∧
      ({ SampleRecord.reset .h0 with corners := ⟨⟨0, true, false, false⟩, ⟨0, false, false, false⟩,
        ⟨0, false, false, false⟩, ⟨0, false, false, false⟩⟩ } : SampleRecord).anySaturated = true ∧
      ({ SampleRecord.reset .h0 with corners := ⟨⟨0, false, false, false⟩, ⟨0, false, false, false⟩,
        ⟨0, false, false, false⟩, ⟨0, false, true, true⟩⟩ } : SampleRecord).anyNoisyRun = true) ∧
    Period.us250 ≠ base.period ∧
    ((engage.monitor .h0).claim = some claim10 ∧ (engage.monitor .h0).copy = some copy5 ∧
      (engage.monitor .h0).stroke = some { begun with contactPosition := some 12500 }) := by decide

theorem witness_SampleOutsideAStroke :
    (base.resetHeld = false ∧ (base.monitor .h0).state = .idle) ∧
    (waiting.resetHeld = false ∧ (waiting.monitor .h1).state = .waiting) ∧
    (armed.resetHeld = false ∧ (armed.monitor .h0).state = .armed) ∧
    (retract.resetHeld = false ∧ (retract.monitor .h0).state = .retract) := by decide

/-- H0's counter at a position, its phases 0 and 0. -/
def atPosition (p : Int) : State := base.setFront .h0 { base.front .h0 with position := p }

theorem witness_EncoderCountsPhases :
    (base.resetHeld = false ∧ (⟨false, false⟩ : Phase) = (base.front .h0).phase) ∧
    ((⟨true, false⟩ : Phase) = ⟨!((atPosition 8388606).front .h0).phase.b,
        ((atPosition 8388606).front .h0).phase.a⟩ ∧
      ((atPosition 8388606).front .h0).position < 8388607) ∧
    (((atPosition (-8388607)).front .h0).phase = ⟨!(⟨false, true⟩ : Phase).b, (⟨false, true⟩ : Phase).a⟩ ∧
      -8388608 < ((atPosition (-8388607)).front .h0).position) ∧
    ((⟨true, false⟩ : Phase) = ⟨!((atPosition 8388607).front .h0).phase.b,
        ((atPosition 8388607).front .h0).phase.a⟩ ∧
      ((atPosition 8388607).front .h0).position = 8388607) ∧
    (((atPosition (-8388608)).front .h0).phase = ⟨!(⟨false, true⟩ : Phase).b, (⟨false, true⟩ : Phase).a⟩ ∧
      ((atPosition (-8388608)).front .h0).position = -8388608) ∧
    ((⟨true, true⟩ : Phase) = ⟨!(base.front .h0).phase.a, !(base.front .h0).phase.b⟩) := by decide

theorem witness_HomeZeroesThePosition :
    (base.takes (.head .h0) = true ∧ ([0] : List Byte) ≠ [] ∧ ([0] : List Byte).length ≤ 250) ∧
    (base.monitor .h0).state = .idle ∧
    (waiting.takes (.head .h1) = true ∧ (waiting.monitor .h1).state = .waiting) ∧
    (armed.takes (.head .h0) = true ∧ (armed.monitor .h0).state ≠ .idle ∧
      (armed.monitor .h0).state ≠ .waiting) := by decide

theorem witness_ConfigureHeadReplacesTheConfiguration :
    base.takes .cell = true ∧ longest.length ≠ 14 ∧ longest.length ≤ 250 ∧
    (([4, 0, 1, 0, 1, 0, 1, 0, 1, 0, 1, 0, 1, 0] : List Byte).length = 14 ∧
      3 < at8 [4, 0, 1, 0, 1, 0, 1, 0, 1, 0, 1, 0, 1, 0] 0) ∧
    (([3, 0, 1, 0, 1, 0, 1, 0, 1, 0, 1, 0, 1, 4] : List Byte).length = 14 ∧
      3 < at8 [3, 0, 1, 0, 1, 0, 1, 0, 1, 0, 1, 0, 1, 4] 13) ∧
    ((0 < 65536 ∧ 65535 < 65536 ∧ 2000 < 65536 ∧ stabilityOf 3 = some .ms400) ∧
      (base.monitor .h3).state = .idle ∧ armed.takes .cell = true ∧
      (armed.monitor .h0).state ≠ .idle) := by
  refine ⟨by decide, ?_, Nat.le_of_eq longest_length, by decide, by decide, by decide⟩
  rw [longest_length]; decide

/-- A record with every field at its greatest. -/
def widest : TypeRecord :=
  { partCode := 4294967295, pinTotal := 65535, contactThreshold := 65535, confirmCount := 255
    approachLimit := 65535, groups := List.replicate 255 ⟨65535, 65535, 65535, 65535, 65535⟩
    seatStart := 65535, seatSearch := 65535, slopeThreshold := 65535, seatWindow := 255
    forceMax := 4294967295, overtravelMax := 65535, dwell := 65535, tiltLimit := 65535
    tiltFloor := 4294967295, stallTime := 65535, strokeLimit := 65535 }

theorem witness_TypeRecordLayoutRoundTrips :
    RecordFits type5 ∧ type5.groups[2]? = some ⟨1500, 40, 300, 900, 300⟩ ∧ RecordFits widest := by
  refine ⟨⟨by decide, by decide, by decide, by decide⟩, by decide,
    ⟨by decide, ⟨by decide, by decide, ?_⟩, by decide, ?_⟩⟩
  · show (List.replicate 255 _).length < 256
    rw [List.length_replicate]; decide
  · intro g hg
    obtain ⟨-, rfl⟩ := List.mem_replicate.1 hg
    decide

/-- The payload of LOAD_TYPE that places type 5 in a slot of number `n`, its group count `k`. -/
def placing (n k : Byte) : List Byte := ((typeBytes 5 type5).set 0 n).set 12 k

theorem witness_LoadTypeRefusals :
    (∃ f, firstFailure { type5 with seatStart := 1700 } = some f) ∧
    (∃ f, firstFailure { type5 with groups := [⟨1, 200, 300, 900, 300⟩] } = some f ∧
      f.group = 0 + 1) ∧
    (base.takes .cell = true ∧ ([] : List Byte).length < 38 ∧
      (List.replicate 37 (0 : Byte)).length < 38) ∧
    ((placing 48 3).length ≤ 250 ∧ 38 ≤ (placing 48 3).length ∧ 47 < at8 (placing 48 3) 0) ∧
    (38 ≤ (placing 47 0).length ∧ at8 (placing 47 0) 0 ≤ 47 ∧ at8 (placing 47 0) 12 = 0) ∧
    (38 ≤ (placing 0 9).length ∧ at8 (placing 0 9) 0 ≤ 47 ∧ 8 < at8 (placing 0 9) 12) ∧
    (38 ≤ (placing 47 8).length ∧ 1 ≤ at8 (placing 47 8) 12 ∧ at8 (placing 47 8) 12 ≤ 8 ∧
      (placing 47 8).length ≠ 38 + 10 * at8 (placing 47 8) 12) ∧
    (let p := typeBytes 5 { type5 with seatStart := 1700 };
      at8 p 0 ≤ 47 ∧ 1 ≤ at8 p 12 ∧ at8 p 12 ≤ 8 ∧ p.length = 38 + 10 * at8 p 12 ∧
        firstFailure (recordOf p) = some ⟨14, 0⟩) := by
  refine ⟨⟨⟨14, 0⟩, by decide⟩, ⟨⟨11, 1⟩, by decide, by decide⟩, by decide, by decide, by decide,
    by decide, by decide, by decide⟩

/-- Type 5 in a state, with users. -/
def typeIn (st : TypeState) (users : Nat) (waiting : Option StoredRecord) : State :=
  base.setType 5 { state := st, users := users, faults := 0, active := some (.fresh type5)
                   waiting := waiting }

theorem witness_LoadTypePlacesTheRecord :
    (base.takes .cell = true ∧ firstFailure type5 = none ∧ (base.typeSlot 5).state = .absent) ∧
    (((typeIn .ready 0 none).takes .cell = true ∧
      ((typeIn .ready 0 none).typeSlot 5).state = .ready ∧
      ((typeIn .ready 0 none).typeSlot 5).users = 0) ∧
    (((typeIn .broken 0 none).typeSlot 5).state = .broken ∧
      ((typeIn .broken 0 none).typeSlot 5).users = 0)) ∧
    (((typeIn .ready 1 none).typeSlot 5).state = .ready ∧
      1 ≤ ((typeIn .ready 1 none).typeSlot 5).users) ∧
    (((typeIn .broken 1 none).typeSlot 5).state = .broken ∧
      1 ≤ ((typeIn .broken 1 none).typeSlot 5).users) ∧
    ((typeIn .draining 1 (some (.fresh type5))).typeSlot 5).state = .draining := by decide

theorem witness_RecordIntegrity :
    (StoredRecord.fresh type5).InOrder ∧ (StoredRecord.fresh type5).readable = true ∧
    (({ fields := type5, flips := [(3, 7), (3, 8), (4, 0)] } : StoredRecord).InOrder) := by
  refine ⟨List.Pairwise.nil, by decide, ?_⟩
  unfold StoredRecord.InOrder; decide

theorem oneFlip_sound : oneFlip.sound := by
  intro w
  simp only [StoredRecord.flippedIn, oneFlip, List.countP_cons, List.countP_nil]
  split <;> omega

theorem oneFlip_inOrder : oneFlip.InOrder := by unfold StoredRecord.InOrder; decide

theorem twoFlips_not_sound : ¬ twoFlips.sound := fun h => absurd (h 3) (by decide)

/-- Type 5 with an active record of two flips. -/
def spoiled (st : TypeState) (waiting : Option StoredRecord) : State :=
  base.setType 5 { state := st, users := 1, faults := 254, active := some twoFlips
                   waiting := waiting }

theorem witness_ReadTypeReportsAndRepairs :
    (base.takes .cell = true ∧ ([] : List Byte).length ≠ 1 ∧ 47 < (48 : Byte).toNat ∧
      (base.typeSlot 5).state = .absent ∧ ((typeIn .broken 0 none).typeSlot 5).state = .broken) ∧
    (let s := base.setType 5 { state := .draining, users := 1, faults := 255, active := some oneFlip
                               waiting := some (.fresh type5) };
      s.takes .cell = true ∧ (s.typeSlot 5).state = .draining ∧
        (s.typeSlot 5).active = some oneFlip ∧ oneFlip.InOrder ∧ oneFlip.sound) ∧
    ((spoiled .ready none).takes .cell = true ∧ ((spoiled .ready none).typeSlot 5).state = .ready ∧
      ((spoiled .ready none).typeSlot 5).active = some twoFlips ∧ ¬ twoFlips.sound) ∧
    (let s := waitingOn { ready5 with active := some twoFlips };
      s.takes .cell = true ∧ (s.typeSlot 5).state = .ready ∧ (s.typeSlot 5).active = some twoFlips ∧
        (s.queue.filter fun e => s.typeAt e.claim.site == some 5) ≠ []) ∧
    (let s := waitingOn { state := .draining, users := 1, faults := 0, active := some twoFlips
                          waiting := some twoFlips };
      s.takes .cell = true ∧ (s.typeSlot 5).state = .draining ∧
        (s.typeSlot 5).active = some twoFlips ∧ (s.typeSlot 5).waiting = some twoFlips ∧
        (s.queue.filter fun e => s.typeAt e.claim.site == some 5) ≠ []) ∧
    (let s := spoiled .draining (some oneFlip);
      s.takes .cell = true ∧ (s.typeSlot 5).state = .draining ∧
        (s.typeSlot 5).active = some twoFlips ∧ (s.typeSlot 5).waiting = some oneFlip) := by
  exact ⟨by decide, ⟨by decide, by decide, by decide, oneFlip_inOrder, oneFlip_sound⟩,
    ⟨by decide, by decide, by decide, twoFlips_not_sound⟩, by decide, by decide, by decide⟩

theorem witness_LastReleaseInstallsThePending :
    (((typeIn .ready 1 none).typeSlot 5).state ≠ .draining ∧
      ((typeIn .draining 2 (some oneFlip)).typeSlot 5).users ≠ 1) ∧
    (((typeIn .draining 1 (some oneFlip)).typeSlot 5).state = .draining ∧
      ((typeIn .draining 1 (some oneFlip)).typeSlot 5).users = 1 ∧
      ((typeIn .draining 1 (some oneFlip)).typeSlot 5).waiting = some oneFlip) ∧
    ((typeIn .draining 1 (some twoFlips)).typeSlot 5).waiting = some twoFlips := by decide

/-! Boards and sites -/

theorem witness_BoardBeginOpensABoard :
    (base.takes .cell = true ∧ ([] : List Byte).length ≠ 7 ∧
      ([0, 0, 0, 0, 0, 0, 4] : List Byte).length = 7 ∧ 3 < at8 [0, 0, 0, 0, 0, 0, 4] 6) ∧
    (15 < 256 ∧ 255 < 256 ∧ 0 < 256 ∧ periodOf 0 = some .us250 ∧ periodOf 3 = some .us2000) ∧
    (opened.takes .cell = true ∧ opened.board.state ≠ .noBoard) ∧
    (halted.takes .cell = true ∧
      (halted.monitor .h0).state = .halted ∧ (retract.monitor .h0).state = .retract) ∧
    (base.board.state = .noBoard ∧
      ∀ h ∈ allHeads, (base.monitor h).state ≠ .halted ∧ (base.monitor h).state ≠ .retract) := by
  decide

/-- A board that is ABORTING. -/
def aborting : State := { halted with board := { halted.board with state := .aborting } }

theorem witness_BoardEndClosesTheBoard :
    (base.takes .cell = true ∧ ([0] : List Byte) ≠ [] ∧ ([0] : List Byte).length ≤ 250 ∧
      base.board.state = .noBoard) ∧
    (aborting.takes .cell = true ∧ aborting.board.state = .aborting) ∧
    (armed.takes .cell = true ∧ armed.board.state = .isOpen ∧ (armed.monitor .h0).state ≠ .idle ∧
      (armed.monitor .h0).state ≠ .waiting) ∧
    (onlyWaiting.takes .cell = true ∧ onlyWaiting.board.state = .isOpen ∧
      (onlyWaiting.queue.map (·.head)).Nodup ∧ onlyWaiting.queue ≠ [] ∧
      ∀ h ∈ allHeads, (onlyWaiting.monitor h).state = .idle ∨
        (onlyWaiting.monitor h).state = .waiting) := by decide

theorem witness_SiteDefineMakesTheSiteEmpty :
    ((opened.takes .cell = true ∧ base.takes .cell = true ∧ aborting.takes .cell = true) ∧
      ([0, 0, 0, 0, 0, 0] : List Byte).length < 7 ∧
      at8 ([0, 0, 0, 0, 0, 0, 0] : List Byte) 6 = 0 ∧
      6 < at8 ([0, 0, 0, 0, 0, 0, 7] : List Byte) 6 ∧
      (7 ≤ ([0, 0, 0, 0, 0, 0, 6] : List Byte).length ∧
        ([0, 0, 0, 0, 0, 0, 6] : List Byte).length ≠ 7 + 6 ∧
        at8 ([0, 0, 0, 0, 0, 0, 6] : List Byte) 6 = 6)) ∧
    (65535 < 65536 ∧ 1 ≤ ([31] : List Byte).length ∧ ([0, 1, 2, 3, 4, 31] : List Byte).length ≤ 6) ∧
    (base.board.state = .noBoard ∧ aborting.board.state = .aborting) ∧
    (opened.board.state = .isOpen ∧ 95 < (96 : Byte).toNat ∧ (95 : Byte).toNat ≤ 95) ∧
    ((¬ (48 : Byte).toNat ≤ 47) ∧ (¬ ∀ z ∈ ([32] : List Byte), z.toNat ≤ 31) ∧
      ¬ ([5, 5] : List Byte).Nodup) ∧
    ((5 : Byte).toNat ≤ 47 ∧ (∀ z ∈ ([0, 1, 2, 3, 4, 31] : List Byte), z.toNat ≤ 31) ∧
      ([0, 1, 2, 3, 4, 31] : List Byte).Nodup ∧ (opened.typeSlot 47).state = .absent ∧
      (opened.typeSlot 5).state ≠ .absent) ∧
    (opened.site 10 = some (site [4, 5] .loaded) ∧ (site [4, 5] .loaded).state ≠ .empty) ∧
    (opened.site 95 = none ∧ opened.site 12 = some (site [6, 7] .empty)) := by decide

theorem witness_LoadMakesTheSiteLoaded :
    (opened.takes .cell = true ∧ base.takes .cell = true ∧ aborting.takes .cell = true ∧
      ([] : List Byte).length ≠ 1 ∧ base.board.state = .noBoard ∧
      aborting.board.state = .aborting ∧ opened.board.state = .isOpen ∧ 95 < (96 : Byte).toNat) ∧
    (opened.site 95 = none ∧ (95 : Fin 96).val = (95 : Byte).toNat) ∧
    (∀ e ∈ opened.site 10, e.state ≠ .empty) ∧
    (opened.site 12 = some (site [6, 7] .empty) ∧ (site [6, 7] .empty).state = .empty) := by decide

theorem witness_UnloadMakesTheSiteEmpty :
    (opened.takes .cell = true ∧ base.takes .cell = true ∧ aborting.takes .cell = true ∧
      base.board.state = .noBoard ∧ aborting.board.state = .aborting ∧
      opened.board.state = .isOpen ∧ 95 < (96 : Byte).toNat) ∧
    (opened.site 95 = none ∧ opened.site 12 = some (site [6, 7] .empty) ∧
      approach.takes .cell = true ∧ approach.board.state = .isOpen ∧
      approach.site 10 = some (site [4, 5] (.pressing .h0 .loaded))) ∧
    (opened.site 10 = some (site [4, 5] .loaded) ∧
      (opened.queue.filter fun q => q.claim.site == 10) = []) ∧
    (onlyWaiting.takes .cell = true ∧ onlyWaiting.board.state = .isOpen ∧
      onlyWaiting.site 11 = some (site [5, 6] .loaded) ∧
      (onlyWaiting.queue.filter fun q => q.claim.site == 11) ≠ []) ∧
    (armed.takes .cell = true ∧ armed.board.state = .isOpen ∧
      armed.site 10 = some (site [4, 5] (.claimed .h0 .loaded)) ∧
      (armed.monitor .h0).claim = some claim10 ∧ claim10.site = 10 ∧
      (armed.monitor .h0).copy = some copy5) := by decide

theorem witness_OutcomesAreApplied :
    (site [4, 5] (.pressing .h0 .loaded)).state = .pressing .h0 .loaded ∧
    (true = true ∨ Cause.tilt = .noContact) ∧ Cause.overforce ≠ .noContact ∧
    ∀ h ∈ allHeads, ∀ g ∈ [GrantFrom.loaded, .rejected],
      (site [4, 5] .loaded).state ≠ .pressing h g := by decide

/-! Claims -/

theorem witness_ClaimRefusals :
    (base.takes (.head .h0) = true ∧ ([] : List Byte).length ≠ 3 ∧ 1 < (2 : Byte).toNat ∧
      (1 : Byte).toNat ≤ 1 ∧ base.board.state = .noBoard) ∧
    (aborting.takes (.head .h1) = true ∧ aborting.board.state = .aborting) ∧
    ({ opened with estop := true }.takes (.head .h0) = true ∧
      { opened with estop := true }.board.state = .isOpen ∧ { opened with estop := true }.estop = true) ∧
    (armed.takes (.head .h0) = true ∧ armed.board.state = .isOpen ∧ armed.estop = false ∧
      (armed.monitor .h0).state ≠ .idle) ∧
    (opened.takes (.head .h0) = true ∧ opened.board.state = .isOpen ∧ opened.estop = false ∧
      (opened.monitor .h0).state = .idle ∧ 95 < (96 : Byte).toNat) ∧
    (opened.site 95 = none ∧ (95 : Fin 96).val = (95 : Byte).toNat) ∧
    (let s := opened.setType 5 { ready5 with state := .broken };
      s.takes (.head .h0) = true ∧ s.board.state = .isOpen ∧ s.estop = false ∧
        (s.monitor .h0).state = .idle ∧ s.site 10 = some (site [4, 5] .loaded) ∧
        (s.typeSlot (site [4, 5] .loaded).typeNo).state = .broken) := by decide

/-- A site that a restrike may claim, its last attempt but one spent. -/
def again : SiteEntry :=
  { site [4, 5] .rejected with attempts := 2, last := some (.abort .depthLimit) }

/-- Board 7,301 with type 5 READY, its active record with one flipped bit, site 10 to be restruck, and
63 records held. -/
def nearlyFull : State :=
  { opened with
    library := opened.library.set 5 { ready5 with active := some oneFlip }
    sites := opened.sites.set 10 (some again)
    records := List.replicate 63
      (pressRecord .h0 claim10 copy5 begun 0 .pass none) }

theorem nearlyFull_room : nearlyFull.records.length + nearlyFull.reserved < 64 := by
  have h : nearlyFull.records.length = 63 := List.length_replicate
  rw [h]; decide

theorem witness_LoneClaimIsGranted :
    (opened.takes (.head .h0) = true ∧ (10 : Fin 96).val = (10 : Byte).toNat ∧ opened.queue = [] ∧
      opened.board.state = .isOpen ∧ opened.estop = false ∧ opened.monitor .h0 = Monitor.idle ∧
      opened.site 10 = some (site [4, 5] .loaded) ∧
      (opened.typeSlot (site [4, 5] .loaded).typeNo).state = .ready ∧
      (opened.typeSlot (site [4, 5] .loaded).typeNo).active = some (.fresh type5) ∧
      (∀ z ∈ (site [4, 5] .loaded).keepOut, opened.holder z = none) ∧
      opened.records.length + opened.reserved < 64) ∧
    (nearlyFull.takes (.head .h0) = true ∧ nearlyFull.queue = [] ∧
      nearlyFull.board.state = .isOpen ∧ nearlyFull.estop = false ∧
      nearlyFull.monitor .h0 = Monitor.idle ∧ nearlyFull.site 10 = some again ∧
      (again.state = .rejected ∧ again.last = some (.abort .depthLimit) ∧ again.attempts < 3) ∧
      (nearlyFull.typeSlot again.typeNo).state = .ready ∧
      (nearlyFull.typeSlot again.typeNo).active = some oneFlip ∧
      (∀ z ∈ again.keepOut, nearlyFull.holder z = none)) ∧
    oneFlip.InOrder ∧ oneFlip.sound ∧ nearlyFull.records.length + nearlyFull.reserved < 64 :=
  ⟨by decide, by decide, oneFlip_inOrder, oneFlip_sound, nearlyFull_room⟩

/-- No result slot is free. -/
def noRoom : State :=
  { opened with
    records := List.replicate 64 (pressRecord .h0 claim10 copy5 begun 0 .pass none) }

theorem noRoom_full : 64 ≤ noRoom.records.length + noRoom.reserved := by
  have h : noRoom.records.length = 64 := List.length_replicate
  rw [h]; decide

/-- Type 5 in a state beside an open board. -/
def openedWith (slot : TypeSlot) : State := opened.setType 5 slot

theorem witness_LoneClaimWaitsOrIsRefused :
    (let s := openedWith { state := .draining, users := 1, faults := 0
                           active := some (.fresh type5), waiting := some (.fresh type5) };
      s.takes (.head .h0) = true ∧ s.queue = [] ∧ s.board.state = .isOpen ∧ s.estop = false ∧
        s.monitor .h0 = Monitor.idle ∧ s.site 10 = some (site [4, 5] .loaded) ∧
        (s.typeSlot 5).state = .draining) ∧
    (armed.takes (.head .h1) = true ∧ armed.queue = [] ∧ armed.board.state = .isOpen ∧
      armed.estop = false ∧ armed.monitor .h1 = Monitor.idle ∧
      armed.site 11 = some (site [5, 6] .loaded) ∧ (armed.typeSlot 5).state = .ready ∧
      (5 : Fin 32) ∈ (site [5, 6] .loaded).keepOut ∧ armed.holder 5 = some .h0) ∧
    (noRoom.takes (.head .h0) = true ∧ noRoom.queue = [] ∧ noRoom.board.state = .isOpen ∧
      noRoom.estop = false ∧ noRoom.monitor .h0 = Monitor.idle ∧
      noRoom.site 10 = some (site [4, 5] .loaded) ∧ (noRoom.typeSlot 5).state = .ready ∧
      ¬ (∃ z ∈ (site [4, 5] .loaded).keepOut, (noRoom.holder z).isSome)) ∧
    (let s := openedWith { ready5 with active := some twoFlips };
      s.takes (.head .h0) = true ∧ s.queue = [] ∧ s.board.state = .isOpen ∧ s.estop = false ∧
        s.monitor .h0 = Monitor.idle ∧ s.site 10 = some (site [4, 5] .loaded) ∧
        (s.typeSlot 5).state = .ready ∧ (s.typeSlot 5).active = some twoFlips ∧
        ¬ (∃ z ∈ (site [4, 5] .loaded).keepOut, (s.holder z).isSome) ∧
        ¬ 64 ≤ s.records.length + s.reserved) ∧
    64 ≤ noRoom.records.length + noRoom.reserved ∧ ¬ twoFlips.sound :=
  ⟨by decide, by decide, by decide, by decide, noRoom_full, twoFlips_not_sound⟩

/-- H1 WAITING for site 11 with a bypass count, a zone of it held by H0; site 20 of zone 6 LOADED. -/
def overtaken (bypass : Nat) : State :=
  { waiting with
    queue := [{ head := .h1, claim := { site := 11, restrike := false }, bypass := bypass }]
    sites := waiting.sites.set 20 (some (site [6] .loaded)) }

/-- H1 WAITING, its bypass count 3, for site 11 of a type that is DRAINING, no zone held; site 20 of
zone 6 may be restruck. -/
def passedOver : State :=
  { onlyWaiting with
    library := onlyWaiting.library.set 6
      { state := .draining, users := 1, faults := 0, active := some (.fresh type5)
        waiting := some oneFlip }
    queue := [{ head := .h1, claim := { site := 11, restrike := false }, bypass := 3 }]
    sites := (onlyWaiting.sites.set 11 (some { site [5, 6] .loaded with typeNo := 6 })).set 20
      (some { again with keepOut := [6] }) }

/-- A restrike goes ahead of a claim that waits on a DRAINING type. -/
theorem witness_BypassLimitGuardsOlderClaims_restrike :
    (passedOver.takes (.head .h2) = true ∧ passedOver.board.state = .isOpen ∧
      passedOver.estop = false ∧ passedOver.monitor .h2 = Monitor.idle ∧
      passedOver.site 20 = some { again with keepOut := [6] } ∧ again.state = .rejected ∧
      again.last = some (.abort .depthLimit) ∧ again.attempts < 3 ∧
      (passedOver.typeSlot 5).state = .ready ∧ passedOver.holder 6 = none ∧
      passedOver.meets { site := 11, restrike := false } = true) ∧
    (passedOver.typeSlot 6).state = .draining ∧ 3 < passedOver.board.bypassLimit ∧
    (let t := after (.claim .h2 0 [20, 0, 1]) passedOver;
      t.queue.map (·.bypass) = [4] ∧ (t.monitor .h2).state = .armed) := by decide

/-- Entries a pass drops, leaves and grants, one whose type it breaks, and a claim behind another. -/
theorem witness_BypassLimitGuardsOlderClaims_pass :
    (∀ x ∈ (twoWaiting 12).site 12, x.state ≠ .loaded) ∧
    (waiting.site 11 = some (site [5, 6] .loaded) ∧ waiting.holder 5 = some .h0) ∧
    ((twoWaiting 11).site 11 = some (site [5, 6] .loaded) ∧
      ((twoWaiting 11).typeSlot 5).state = .ready ∧
      ((twoWaiting 11).typeSlot 5).active = some (.fresh type5) ∧
      (∀ z ∈ (site [5, 6] .loaded).keepOut, (twoWaiting 11).holder z = none) ∧
      (twoWaiting 11).records.length + (twoWaiting 11).reserved < 64 ∧
      ((twoWaiting 11).queue.takeWhile fun o => !(o.head == .h1)) = []) ∧
    (let s := waitingOn { ready5 with active := some twoFlips };
      s.site 11 = some (site [5, 6] .loaded) ∧ (s.typeSlot 5).active = some twoFlips ∧
        ∀ z ∈ (site [5, 6] .loaded).keepOut, s.holder z = none) ∧
    (onlyWaiting.takes (.head .h2) = true ∧ (onlyWaiting.monitor .h2).state = .idle ∧
      onlyWaiting.site 10 = some (site [4, 5] .loaded) ∧
      (onlyWaiting.typeSlot 5).state ≠ .broken) := by decide

/-- R68: claims not to wait, each with what its own pass leaves: for a DRAINING type; with no slot free;
for site 20, blocked by H1's older entry; for site 11, which the pass gives to H1; for a type the pass
breaks; for site 10, whose zone 5 the pass gives to H1; and one the pass grants. -/
theorem witness_BypassLimitGuardsOlderClaims_noWait :
    ((after (.claim .h2 0 [11, 0, 0]) passedOver).headLinks.h2.out =
      [{ kind := 145, tag := 0, payload := [21] }]) ∧
    ((after (.claim .h2 0 [10, 0, 0]) noRoom).headLinks.h2.out =
      [{ kind := 145, tag := 0, payload := [22] }]) ∧
    (let s := overtaken 4;
      s.takes (.head .h2) = true ∧ (s.monitor .h2).state = .idle ∧
        (∀ q ∈ s.queue, q.head ≠ .h2) ∧
        (after (.claim .h2 0 [20, 0, 0]) s).headLinks.h2.out =
          [{ kind := 145, tag := 0, payload := [20] }]) ∧
    (onlyWaiting.takes (.head .h2) = true ∧ (∀ q ∈ onlyWaiting.queue, q.head ≠ .h2) ∧
      (let t := after (.claim .h2 0 [11, 0, 0]) onlyWaiting;
        (t.monitor .h1).state = .armed ∧ t.monitor .h2 = Monitor.idle ∧ t.queue = [] ∧
          t.headLinks.h2.out = [{ kind := 145, tag := 0, payload := [8] }])) ∧
    (let t := after (.claim .h2 0 [10, 0, 0]) (waitingOn { ready5 with active := some twoFlips });
      t.queue = [] ∧ t.monitor .h1 = Monitor.idle ∧ t.monitor .h2 = Monitor.idle ∧
        t.headLinks.h2.out = [{ kind := 145, tag := 0, payload := [10] }]) ∧
    (let t := after (.claim .h2 0 [10, 0, 0]) onlyWaiting;
      (t.monitor .h1).state = .armed ∧ t.monitor .h2 = Monitor.idle ∧
        t.headLinks.h2.out = [{ kind := 145, tag := 0, payload := [20] }]) ∧
    (let t := after (.claim .h2 0 [20, 0, 1]) passedOver;
      (t.monitor .h2).state = .armed ∧
        t.headLinks.h2.out.take 1 = [{ kind := 145, tag := 0, payload := [0, 20, 2, 0, 0] }]) := by
  decide

theorem witness_BypassLimitGuardsOlderClaims :
    (∀ b ∈ [3, 4],
      (overtaken b).takes (.head .h2) = true ∧ (20 : Fin 96).val = (20 : Byte).toNat ∧
        (overtaken b).queue =
          [{ head := .h1, claim := { site := 11, restrike := false }, bypass := b }] ∧
        Head.h1 ≠ Head.h2 ∧ (11 : Fin 96) ≠ 20 ∧ (overtaken b).board.state = .isOpen ∧
        (overtaken b).estop = false ∧ (overtaken b).monitor .h2 = Monitor.idle) ∧
    (∀ b ∈ [3, 4],
      (overtaken b).site 20 = some (site [6] .loaded) ∧
        ((overtaken b).typeSlot 5).state = .ready ∧
        ((overtaken b).typeSlot 5).active = some (.fresh type5) ∧
        (∀ z ∈ (site [6] .loaded).keepOut, (overtaken b).holder z = none) ∧
        (overtaken b).records.length + (overtaken b).reserved < 64 ∧
        (overtaken b).site 11 = some (site [5, 6] .loaded) ∧
        (overtaken b).meets { site := 11, restrike := false } = true ∧
        ((5 : Fin 32) ∈ (site [5, 6] .loaded).keepOut ∧ (overtaken b).holder 5 = some .h0) ∧
        ((6 : Fin 32) ∈ (site [5, 6] .loaded).keepOut ∧ (6 : Fin 32) ∈ (site [6] .loaded).keepOut)) ∧
    3 < (overtaken 3).board.bypassLimit ∧ 4 = (overtaken 4).board.bypassLimit ∧
    (StoredRecord.fresh type5).InOrder ∧ (StoredRecord.fresh type5).sound :=
  ⟨by decide, by decide, by decide, by decide, List.Pairwise.nil, fun _ => Nat.zero_le _⟩

/-- No head of `armed` but H0 has a claim that expires. -/
theorem armed_others (h' : Head) (h : h' ≠ .h0) (time : Nat) : armed.expiresNoSooner h' time :=
  fun _ _ st => absurd st (by cases h' <;> [exact absurd rfl h; decide; decide; decide])

theorem witness_ArmedClaimsAreGivenUp :
    (opened.takes (.head .h0) = true ∧ (opened.monitor .h0).state = .idle) ∧
    (approach.takes (.head .h0) = true ∧ (approach.monitor .h0).state.inStroke = true ∧
      (retract.monitor .h0).state = .retract ∧ (halted.monitor .h0).state = .halted) ∧
    (waiting.takes (.head .h1) = true ∧ (waiting.monitor .h1).state = .waiting) ∧
    (armed.takes (.head .h0) = true ∧ (armed.monitor .h0).state = .armed ∧
      (armed.monitor .h0).claim = some claim10 ∧ (armed.monitor .h0).copy = some copy5 ∧
      (armed.monitor .h0).grantTime = some 1234000 ∧
      armed.site claim10.site = some (site [4, 5] (.claimed .h0 .loaded)) ∧
      1234000 + armed.board.holdTime * 100000 ≤ 624 * 10000 ∧
      624 * 10000 < 1234000 + armed.board.holdTime * 100000 + 10000 ∧
      623 * 10000 < 1234000 + armed.board.holdTime * 100000) ∧
    (let s := armed.setLink (.head .h0) LinkState.reset;
      s.takes (.head .h0) = false ∧ (s.monitor .h0).state = .armed ∧
        (s.monitor .h0).claim = some claim10 ∧ (s.monitor .h0).copy = some copy5 ∧
        (s.monitor .h0).grantTime = some 1234000 ∧
        s.site claim10.site = some (site [4, 5] (.claimed .h0 .loaded))) ∧
    (opened.monitor .h0).state ≠ .armed := by decide

/-- The hypotheses on the other heads, and on the heads of a state with none ARMED. -/
theorem witness_ArmedClaimsAreGivenUp_others :
    (∀ h', h' ≠ .h0 → armed.expiresNoSooner h' (624 * 10000)) ∧ opened.quietUntil (624 * 10000) :=
  ⟨fun h' h => armed_others h' h _, fun h _ _ st => absurd st (by cases h <;> decide)⟩

/-- `armed` at the event of its expiry, a frame waiting on one link and one in transmission on another,
both past that event. -/
def overdue : State :=
  (({ armed with clock := 6240000 } : State).setLink (.head .h1)
    { upLink with out := [eventFrame 64 []], idleSince := 6240000 }).setLink .cell
    { upLink with tx := some { bytes := [1, 2, 3, 4], since := 6239990 } }

theorem witness_ArmedClaimsAreGivenUp_time :
    ((overdue.monitor .h0).state = .armed ∧ (overdue.monitor .h0).grantTime = some 1234000 ∧
      1234000 + overdue.board.holdTime * 100000 ≤ 624 * 10000 ∧
      624 * 10000 < 1234000 + overdue.board.holdTime * 100000 + 10000) ∧
    (∀ h', h' ≠ .h0 → overdue.expiresNoSooner h' (624 * 10000 + 1)) ∧
    (∃ t, exec (.holdTimerExpiry .h0 624) overdue = .next t) ∧
    (624 < 625 ∧ overdue.pending = [] ∧ 624 * 10000 ≤ overdue.clock ∧
      (overdue.link (.head .h1)).tx = none ∧
      (overdue.link (.head .h1)).out = eventFrame 64 [] :: [] ∧
      624 * 10000 < (overdue.link (.head .h1)).idleSince + 40 ∧
      (overdue.link .cell).tx = some { bytes := [1, 2, 3, 4], since := 6239990 } ∧
      624 * 10000 < 6239990 + 10 * [1, 2, 3, 4].length) :=
  ⟨by decide, fun h' h => armed_others h' h _, ⟨_, rfl⟩, by decide⟩

/-! Strokes -/

theorem witness_StartBeginsTheStroke :
    armed.takes (.head .h0) = true ∧ (armed.monitor .h0).state = .armed ∧
    (armed.monitor .h0).claim = some claim10 ∧ (armed.monitor .h0).copy = some copy5 ∧
    (armed.front .h0).homed = true ∧ (armed.front .h0).encoderFault = false ∧
    (armed.front .h0).tare.state = .stable ∧
    2 * (armed.front .h0).latest.net < copy5.fields.contactThreshold ∧
    armed.site claim10.site = some (site [4, 5] (.claimed .h0 .loaded)) := by decide

/-- H0 ARMED with another front end. -/
def armedWith (f : FrontEnd → FrontEnd) : State := armed.setFront .h0 (f (steady .h0))

theorem witness_StartRefusals :
    (armed.takes (.head .h0) = true ∧ (opened.takes (.head .h0) = true ∧
      (opened.monitor .h0).state = .idle)) ∧
    (approach.takes (.head .h0) = true ∧ (approach.monitor .h0).state ≠ .idle ∧
      (approach.monitor .h0).state ≠ .armed) ∧
    (let s := armedWith fun f => { f with homed := false };
      s.takes (.head .h0) = true ∧ (s.monitor .h0).state = .armed ∧
        (s.monitor .h0).claim = some claim10 ∧ (s.monitor .h0).copy = some copy5 ∧
        (s.front .h0).homed = false) ∧
    (let s := armedWith fun f => { f with encoderFault := true };
      (s.monitor .h0).state = .armed ∧ (s.front .h0).encoderFault = true) ∧
    (let s := armedWith fun f => { f with tare := { f.tare with state := .outOfRange } };
      (s.monitor .h0).state = .armed ∧ (s.front .h0).homed = true ∧
        (s.front .h0).encoderFault = false ∧ (s.front .h0).tare.state ≠ .stable) ∧
    (let s := armedWith fun f => { f with latest := { f.latest with net := 1000 } };
      (s.monitor .h0).state = .armed ∧ (s.front .h0).homed = true ∧
        (s.front .h0).encoderFault = false ∧ (s.front .h0).tare.state = .stable ∧
        (copy5.fields.contactThreshold : Int) ≤ 2 * (s.front .h0).latest.net) := by decide

/-- What the cases of a stroke sample ask: its causes, and whether the dwell is complete. -/
def sampleCase (s : State) (k : Stroke) (conv : PerCorner Conversions) : List Cause × Bool :=
  let sample := s.sampleOf .h0 conv
  let p := (k.countSample sample).progress (s.monitor .h0).state type5 false sample
  (strokeCauses p.state type5 false p.stroke sample,
    decide (p.state = .seating ∧ p.stroke.dwell = p.stroke.dwellLimit))

theorem witness_StrokeSampleIsWorkedInOrder :
    (approach.resetHeld = false ∧ (approach.monitor .h0).state.inStroke = true ∧
      (approach.monitor .h0).claim = some claim10 ∧ (approach.monitor .h0).copy = some copy5 ∧
      (approach.monitor .h0).stroke = some begun) ∧
    (seating.resetHeld = false ∧ (seating.monitor .h0).state.inStroke = true ∧
      (seating.monitor .h0).claim = some claim10 ∧ (seating.monitor .h0).copy = some copy5 ∧
      (seating.monitor .h0).stroke.isSome) ∧
    sampleCase approach begun (steadyConv 524287 0 0 0) = ([.overforce, .overrange, .tilt], false) ∧
    sampleCase approach begun (steadyConv 600 0 0 0) = ([], false) ∧
    (seating.monitor .h0).stroke.map (fun k => sampleCase seating k (steadyConv 600 0 0 0)) =
      some ([], true) := by decide

/-- A sample of a net force at a position. -/
def sampleAt (net position : Int) : SampleRecord :=
  { SampleRecord.reset .h0 with net := net, gross := net, position := position }

theorem witness_ContactStallAndDwell :
    ((sampleAt 1999 0).net < type5.contactThreshold ∧
      (type5.contactThreshold : Int) ≤ (sampleAt 2000 0).net) ∧
    (begun.contactRun + 1 < type5.confirmCount ∧
      type5.confirmCount ≤ ({ begun with contactRun := 2 } : Stroke).contactRun + 1) ∧
    (let k := { begun with contactPosition := some 12500 };
      k.contactPosition = some 12500 ∧
        (k.progress .engage type5 false (sampleAt 2000 12600)).seated = false) ∧
    (let k : Stroke := { begun with
        contactPosition := some 0
        eval := { begun.eval with
          maxDepth := some 2406, window := [(2402, 110000), (2404, 112000), (2405, 113000), (2406, 114000)] } };
      k.contactPosition = some 0 ∧
        (k.progress .engage type5 false (sampleAt 150000 2410)).seated = true) ∧
    (∀ m ∈ some (99 : Int), m < 12600 - 12500) ∧
    (¬ ∀ m ∈ some (100 : Int), m < 12600 - 12500) ∧
    (let k := { begun with contactPosition := some 12500, seatDepth := some 2410 };
      k.contactPosition = some 12500 ∧ k.seatDepth = some 2410) := by decide

theorem witness_StrokeCausesAreTheTable :
    ∀ st ∈ [HeadState.approach, .engage, .seating], st.inStroke = true := by decide

theorem witness_AbortHaltsTheHead :
    ((engage.monitor .h0).claim = some claim10 ∧ (engage.monitor .h0).copy = some copy5 ∧
      (engage.monitor .h0).stroke = some { begun with contactPosition := some 12500 } ∧
      engage.site claim10.site = some (site [4, 5] (.pressing .h0 .loaded))) ∧
    (armed.takes (.head .h0) = true ∧ (armed.monitor .h0).state.inStroke = false) ∧
    (approach.takes (.head .h0) = true ∧ (approach.monitor .h0).state.inStroke = true) := by decide

theorem witness_VerdictAppendsTheRecord :
    (seating.monitor .h0).claim = some claim10 ∧ (seating.monitor .h0).copy = some copy5 ∧
    (∃ k ∈ (seating.monitor .h0).stroke, k.seatDepth = some 2410) ∧
    seating.site claim10.site = some (site [4, 5] (.pressing .h0 .loaded)) := by decide

theorem witness_HeadsLeaveTheirStroke :
    (armed.takes (.head .h0) = true ∧ (armed.monitor .h0).state ≠ .retract ∧
      (armed.monitor .h0).state ≠ .halted) ∧
    (retract.takes (.head .h0) = true ∧ (retract.monitor .h0).state = .retract) ∧
    (halted.takes (.head .h0) = true ∧ (halted.monitor .h0).state = .halted ∧
      ∃ k ∈ (halted.monitor .h0).stroke, ∃ a ∈ k.abort, a.due.isSome) ∧
    (let m := { halted.monitor .h0 with
        stroke := some (begun.aborted .h0 claim10 copy5 0 false .supervisorReset []) };
      ∃ k ∈ ((halted.setMonitor .h0 m).monitor .h0).stroke, ∃ a ∈ k.abort, a.due = none) ∧
    (retract.board.state ≠ .aborting ∧ aborting.board.state = .aborting ∧
      (aborting.monitor .h0).state = .halted) ∧
    (let s := { opened with board := { opened.board with state := .aborting } };
      s.board.state = .aborting ∧
        ∀ h ∈ allHeads, (s.monitor h).state ≠ .halted ∧ (s.monitor h).state ≠ .retract) := by decide

theorem witness_HaltedSamplesAreWatched :
    halted.resetHeld = false ∧ (halted.monitor .h0).state = .halted ∧
    (halted.monitor .h0).copy = some copy5 ∧
    ∃ k ∈ (halted.monitor .h0).stroke, k.abort.isSome := by decide

theorem witness_LinkBreakEndsTheSession :
    (State.reset.link (.head .h0)).up = false ∧ (base.link .cell).up = true ∧
    ((base.link (.head .h0)).up = true ∧ (base.monitor .h0).state = .idle) ∧
    ((retract.link (.head .h0)).up = true ∧ (retract.monitor .h0).state = .retract) ∧
    ((waiting.link (.head .h1)).up = true ∧ (waiting.monitor .h1).state = .waiting ∧
      ∃ e ∈ waiting.queue, e.head = .h1) ∧
    ((armed.link (.head .h0)).up = true ∧ (armed.monitor .h0).state = .armed ∧
      (armed.monitor .h0).claim = some claim10 ∧ (armed.monitor .h0).copy = some copy5 ∧
      armed.site claim10.site = some (site [4, 5] (.claimed .h0 .loaded))) ∧
    ((engage.link (.head .h0)).up = true ∧ (engage.monitor .h0).state.inStroke = true) ∧
    ((halted.link (.head .h0)).up = true ∧ (halted.monitor .h0).state = .halted ∧
      ∃ k ∈ (halted.monitor .h0).stroke, k.abort.isSome) := by decide

/-! The Profile Evaluator -/

theorem witness_ForceBandsAreChecked :
    begun.eval.firstBandDepth = none ∧
    ({ begun.eval with firstBandDepth := some 700 } : Evaluation).firstBandDepth = some 700 ∧
    ((begun.eval.judgeSample type5 false (some 100) 299 299 36001).failures.bandHigh = true ∧
      (begun.eval.judgeSample type5 false (some 100) 300 300 11999).failures.bandLow = true ∧
      (begun.eval.judgeSample type5 false (some 100) 300 300 12000).failures.isEmpty = true) := by
  decide

theorem witness_BaselinesAreCaptured :
    begun.eval.captures.length = type5.groups.length ∧
    (∀ m ∈ some (799 : Int), m ≤ 800) ∧
    (∃ c ∈ begun.eval.captures[0]?, c.baseline = some 0) ∧
    (1 ≤ 1 ∧ type5.groups[1]? = some ⟨800, 120, 300, 900, 300⟩ ∧
      begun.eval.captures[1]? = some { baseline := none, step := none } ∧
      ((800 : Nat) : Int) ≤ 800 ∧ ∀ m ∈ some (799 : Int), m < 800) ∧
    (type5.groups[2]? = some ⟨1500, 40, 300, 900, 300⟩ ∧ (1499 : Int) < 1500) ∧
    (∀ k ∈ [1, 2], ∀ g ∈ type5.groups[k]?, (g.entry : Int) ≤ 1500) := by decide

theorem witness_ClosedChainIsJudged :
    (begun.eval.captures.length = type5.groups.length ∧
      (type5.groups.Pairwise fun g g' => g.entry < g'.entry) ∧
      begun.eval.captures[2]? = some { baseline := none, step := none } ∧
      ¬ ((0 + 300 : Nat) : Int) ≤ 299 ∧ ((800 + 300 : Nat) : Int) ≤ 1100 ∧
      ¬ ((1500 + 300 : Nat) : Int) ≤ 1500 ∧ ((1500 + 300 : Nat) : Int) ≤ 1800 ∧
      type5.groups[1]? = some ⟨800, 120, 300, 900, 300⟩ ∧
      type5.groups[2]? = some ⟨1500, 40, 300, 900, 300⟩ ∧ (1100 : Int) < (1500 : Nat) ∧
      type5.groups[3]? = none) ∧
    begun.eval.results.length ≤ 0 ∧ 0 < type5.groups.length ∧
    (begun.eval.captures[begun.eval.results.length]?).bind (·.baseline) = some 0 ∧
    2 < type5.groups.length := by decide

theorem witness_SeatIsFoundBySlope :
    begun.eval.window.length ≤ type5.seatWindow + 1 ∧
    ({ begun.eval with window := [(1, 1), (2, 2), (3, 3), (4, 4), (5, 5)] } :
      Evaluation).window.length = type5.seatWindow + 1 := by decide

/-! Records and links -/

theorem witness_TakeRecordHandsOutTheOldest :
    (base.takes .cell = true ∧ base.records = []) ∧
    (let r := pressRecord .h0 claim10 copy5 begun 0 .pass none;
      let s := { base with records := [r] };
      s.takes .cell = true ∧ s.records = r :: []) ∧
    (let g : GroupResult :=
        { index := 1, status := .low, step := some (-1), mean := some (-1), deficit := some 2 };
      let r := { pressRecord .h0 claim10 copy5 begun 0 .reject none with groups := some [g] };
      (r.groups.getD [])[0]? = some g ∧
        (recordBytes r).drop 45 = [1, 1, 3, 255, 255, 255, 255, 255, 255, 255, 255, 0, 2]) := by
  decide

theorem witness_ReportsChangeNothing :
    base.takes (.head .h0) = true ∧ base.takes .cell = true ∧ base.board.state = .noBoard ∧
    (opened.takes .cell = true ∧ opened.board.state ≠ .noBoard ∧ 95 < (96 : Byte).toNat ∧
      (95 : Fin 96).val = (95 : Byte).toNat) ∧
    (let e : QueueEntry := { head := .h0, claim := claim10, bypass := 0 };
      { base with queue := [e, e, e, e] }.queue.length ≤ 4) ∧
    (∀ c ∈ (base.front .h0).corners.toList, c.noiseRun ≤ 3) ∧
    ((armed.monitor .h0).claim = some claim10 ∧ (armed.monitor .h0).grantTime.isSome ∧
      (∀ e ∈ armed.queue, e.head ≠ .h0) ∧ (base.monitor .h0).claim = none) ∧
    (onlyWaiting.queue[0]?.map (·.head) = some .h1 ∧ (onlyWaiting.monitor .h1).claim = none) ∧
    ((seating.monitor .h0).state = .seating ∧ (seating.monitor .h0).stroke.isSome ∧
      (approach.monitor .h0).state ≠ .seating ∧ (approach.monitor .h0).stroke.isSome ∧
      (armed.monitor .h0).stroke = none) ∧
    ((site [4, 5] (.seated 2410)).state = .seated 2410 ∧
      (site [4, 5] (.claimed .h0 .rejected)).state = .claimed .h0 .rejected ∧
      again.last = some (.abort .depthLimit) ∧ (site [4, 5] .loaded).last = none) ∧
    (onlyWaiting.queue.find? fun e => e.head == .h1).isSome ∧
    ((onlyWaiting.monitor .h0).state ≠ .halted ∧ (halted.monitor .h0).state = .halted ∧
      ∃ k ∈ (halted.monitor .h0).stroke, k.abort.isSome) := by decide

set_option maxRecDepth 8000 in
theorem witness_FrameBytesRoundTrip_assembly :
    (let a := ([⟨1, true⟩, ⟨0, true⟩, ⟨0, true⟩, ⟨107, true⟩] : List RxChar).foldl Assembly.receive
        { bytes := [], bad := false };
      a.bad = false ∧ a.bytes = frameBytes 1 0 []) ∧ (129 : Byte).toNat ≥ 128 := by decide

theorem witness_FrameBytesRoundTrip : longest.length ≤ 250 ∧ ([] : List Byte).length ≤ 250 :=
  ⟨Nat.le_of_eq longest_length, Nat.zero_le _⟩

theorem witness_FramesAreDiscarded :
    (base.resetHeld = false ∧ (base.link .cell).assembly = [] ∧
      (base.link .cell).assemblyBad = false) ∧
    (([] : List RxChar).foldl Assembly.receive { bytes := [], bad := false }).frame = none ∧
    (([⟨1, true⟩, ⟨0, true⟩, ⟨0, false⟩, ⟨107, true⟩] : List RxChar).foldl Assembly.receive
      { bytes := [], bad := false }).frame = none ∧
    (State.reset.resetHeld = false ∧ (State.reset.link .cell).up = false ∧
      ¬ ((1 : Byte) = 1 ∧ ([0] : List Byte) = []) ∧ ¬ ((2 : Byte) = 1 ∧ ([] : List Byte) = [])) ∧
    (full.resetHeld = false ∧ (full.link (.head .h0)).up = true ∧
      16 ≤ (full.link (.head .h0)).out.length) ∧
    requestFrame (.load 3 [10]) = some (.cell, ⟨37, 3, [10]⟩) ∧ held.resetHeld = true := by decide

set_option maxRecDepth 8000 in
theorem witness_FramesAreDiscarded_valid :
    (([⟨1, true⟩, ⟨0, true⟩, ⟨0, true⟩, ⟨107, true⟩] : List RxChar).foldl Assembly.receive
      { bytes := [], bad := false }).frame = some { kind := 1, tag := 0, payload := [] } := by decide

theorem witness_HelloAndUnknownRequests :
    (State.reset.resetHeld = false ∧ (State.reset.link .cell).up = false ∧
      (State.reset.link .cell).out = []) ∧
    (base.resetHeld = false ∧ base.takes (.head .h3) = true) ∧
    (base.takes .cell = true ∧ (0 : Byte).toNat ∉ requestKinds .cell ∧
      (16 : Byte).toNat ∉ requestKinds .cell ∧ (32 : Byte).toNat ∉ requestKinds (.head .h0) ∧
      (255 : Byte).toNat ∉ requestKinds .cell) ∧
    ((127 : Byte).toNat < 128 ∧ 128 ≤ (128 : Byte).toNat) := by decide

theorem witness_TransmissionTakesTheOldestFrame :
    ((full.link (.head .h0)).tx = none ∧
      (full.link (.head .h0)).out = eventFrame 64 [] :: List.replicate 15 (eventFrame 64 []) ∧
      (eventFrame 64 []).payload = 0 :: []) ∧
    ((base.link .cell).out = [] ∧ (base.link .cell).tx = none) ∧
    (let s := base.setLink .cell { upLink with tx := some { bytes := [1, 2, 3, 4], since := 100 } };
      (s.link .cell).tx = some { bytes := [1, 2, 3, 4], since := 100 }) := by decide

/-- The hypotheses on the hold timers, in the same states. -/
theorem witness_TransmissionTakesTheOldestFrame_quiet :
    full.quietUntil ((full.link (.head .h0)).idleSince + 40) ∧
    (base.setLink .cell { upLink with tx := some { bytes := [1, 2, 3, 4], since := 100 } }).quietUntil
      (100 + 10 * [1, 2, 3, 4].length) :=
  ⟨fun h _ _ st => absurd st (by cases h <;> decide), fun h _ _ st => absurd st (by cases h <;> decide)⟩

/-! The laws -/

/-- Site 14 after H2's abort before contact, site 13 of type 6 under H1's stroke, site 10 armed by H0,
and H3 WAITING for site 11; type 5 and type 6 DRAINING, type 7 READY. -/
def busy : State :=
  { base with
    pending := [.release .h0 0 []]
    clock := 1234000
    library := (((Vector.replicate 48 TypeSlot.reset).set 5
      { state := .draining, users := 1, faults := 2, active := some (.fresh type5)
        waiting := some oneFlip }).set 6
      { state := .draining, users := 1, faults := 0, active := some (.fresh type5)
        waiting := some twoFlips }).set 7 ready5
    board := { state := .isOpen, serial := 7301, bypassLimit := 4, holdTime := 50 }
    sites := ((((Vector.replicate 96 none).set 10 (some (site [4, 5] (.claimed .h0 .loaded)))).set 11
      (some (site [5, 6] .loaded))).set 13
      (some { site [8, 9] (.pressing .h1 .loaded) with typeNo := 6 })).set 14
      (some (site [12] .loaded))
    zones := ((((((Vector.replicate 32 none).set 4 (some .h0)).set 5 (some .h0)).set 8
      (some .h1)).set 9 (some .h1)).set 12 (some .h2))
    queue := [{ head := .h3, claim := { site := 11, restrike := false }, bypass := 4 }]
    monitors :=
      ⟨{ state := .armed, claim := some claim10, grantTime := some 1234000, slot := true
         copy := some copy5, permit := false, stroke := none },
       { state := .engage, claim := some { site := 13, restrike := false }, grantTime := none
         slot := true, copy := some { copy5 with typeNo := 6 }, permit := true
         stroke := some { begun with contactPosition := some 12500 } },
       { state := .halted, claim := some { site := 14, restrike := false }, grantTime := none
         slot := true, copy := some copy5, permit := false
         stroke := some (begun.aborted .h2 { site := 14, restrike := false } copy5 0 false .overforce
           [.tilt]) },
       { Monitor.idle with state := .waiting }⟩ }

theorem forall_heads {P : Head → Prop} (h : P .h0 ∧ P .h1 ∧ P .h2 ∧ P .h3) : ∀ x, P x
  | .h0 => h.1
  | .h1 => h.2.1
  | .h2 => h.2.2.1
  | .h3 => h.2.2.2

/-- The laws of one head, in a form that is decided. -/
theorem HeadSound.of_checks {m : Monitor} (permit : m.permit = m.state.inStroke)
    (timer : m.grantTime.isSome = (m.state == .armed))
    (unclaimed : m.state = .idle ∨ m.state = .waiting →
      m.claim = none ∧ m.copy = none ∧ m.stroke = none ∧ m.slot = false)
    (claimed : m.state ≠ .idle → m.state ≠ .waiting → m.claim.isSome ∧ m.copy.isSome)
    (stroke : m.stroke.isSome = (m.state.inStroke || m.state.unacknowledged))
    (reserved : m.state.active = true → m.slot = true)
    (judged : m.state = .retract → m.slot = false)
    (running : ∀ k ∈ m.stroke, m.state ≠ .halted → k.abort = none)
    (halted : ∀ k ∈ m.stroke, m.state = .halted → ∃ a ∈ k.abort,
      (a.further.Pairwise fun c d => c.code < d.code) ∧ a.primary ∉ a.further ∧
      (∀ c ∈ a.further, c.code ≤ 13) ∧ (a.due = none ↔ a.primary = .supervisorReset)) :
    HeadSound m where
  permit := permit
  timer := by rw [timer]; exact beq_iff_eq
  unclaimed := unclaimed
  claimed := claimed
  stroke := by rw [stroke, Bool.or_eq_true]
  reserved := reserved
  judged := judged
  running := running
  halted := fun k hk hs => by
    obtain ⟨a, ha, h1, h2, h3, h4⟩ := halted k hk hs
    exact ⟨a, ha, h1, h2, h3, h4⟩

theorem busy_heads : HeadsSound busy := by
  refine forall_heads ⟨?_, ?_, ?_, ?_⟩ <;>
    exact HeadSound.of_checks (by decide) (by decide) (by decide) (by decide) (by decide)
      (by decide) (by decide) (by decide) (by decide)

theorem SiteLaw.of_checks {s : State} (heads : HeadsSound s) (once : (s.queue.map (·.head)).Nodup)
    (waiting : ∀ h ∈ allHeads, (s.monitor h).state = .waiting ↔ h ∈ s.queue.map (·.head))
    (bypass : ∀ e ∈ s.queue, e.bypass ≤ s.board.bypassLimit)
    (isOpen : s.board.state = .isOpen) (estop : s.estop = false)
    (sites : ∀ n : Fin 96, ∀ h ∈ allHeads,
      (((s.site n).map (·.state) = some (.claimed h .loaded) ∨
        (s.site n).map (·.state) = some (.claimed h .rejected)) ↔
          ((s.monitor h).state = .armed ∧ (s.monitor h).claim.map (·.site) = some n)) ∧
      (((s.site n).map (·.state) = some (.pressing h .loaded) ∨
        (s.site n).map (·.state) = some (.pressing h .rejected)) ↔
          ((s.monitor h).state.inStroke = true ∧ (s.monitor h).claim.map (·.site) = some n))) :
    SiteLaw s where
  heads := heads
  once := once
  waiting := fun h => waiting h (mem_allHeads h)
  bypass := bypass
  waitingOpen := fun _ => ⟨isOpen, estop⟩
  activeOpen := fun _ _ => ⟨isOpen, estop⟩
  claimed := fun n h => by
    rw [State.claimedBy_iff, State.claims_iff, ← (sites n h (mem_allHeads h)).1]
    exact ⟨fun ⟨g, hg⟩ => by cases g <;> simp [hg], fun hg => hg.elim (⟨_, ·⟩) (⟨_, ·⟩)⟩
  pressing := fun n h => by
    rw [State.pressedBy_iff, State.claims_iff, ← (sites n h (mem_allHeads h)).2]
    exact ⟨fun ⟨g, hg⟩ => by cases g <;> simp [hg], fun hg => hg.elim (⟨_, ·⟩) (⟨_, ·⟩)⟩
  undefined := fun h => absurd (isOpen.symm.trans h) (by decide)

theorem busy_sites : SiteLaw busy :=
  SiteLaw.of_checks busy_heads (by decide) (by decide) (by decide) rfl rfl (by decide)

theorem busy_claims : ClaimsSound busy := busy_sites.toClaimsSound

theorem busy_zones : ZoneLaw busy where
  toSiteLaw := busy_sites
  held := forall_heads ⟨by
    intro c _ hc; cases hc; decide, by
    intro c _ hc; cases hc; decide, fun c h => absurd h (by decide), fun c h => absurd h (by decide)⟩
  free := forall_heads ⟨by decide, by decide, by decide, by decide⟩

theorem busy_holds : HoldLaw busy where
  toClaimsSound := busy_claims
  timers := forall_heads ⟨by
    intro granted event _ hg le; cases hg
    exact Nat.le_trans (Nat.le_add_right _ _) le,
    fun _ _ st => absurd st (by decide), fun _ _ st => absurd st (by decide),
    fun _ _ st => absurd st (by decide)⟩

theorem busy_slots : SlotLaw busy where
  toClaimsSound := busy_claims
  unreserved := forall_heads ⟨by decide, by decide, by decide, by decide⟩
  room := by decide

/-- The law of one slot, in a form that is decided. -/
theorem LibrarySound.of_checks {s : State}
    (slots : ∀ t : Fin 48, let slot := s.typeSlot t
      (slot.state = .absent → slot.users = 0 ∧ slot.faults = 0) ∧
      (slot.state = .absent ↔ slot.active = none) ∧ (slot.state = .draining ↔ slot.waiting.isSome) ∧
      (slot.state = .draining → 1 ≤ slot.users) ∧ slot.faults ≤ 255)
    (stored : ∀ t : Fin 48, ∀ r ∈ (s.typeSlot t).active.toList ++ (s.typeSlot t).waiting.toList,
      r.flips.Pairwise fun f g => f.1 < g.1 ∨ (f.1 = g.1 ∧ f.2 < g.2)) : LibrarySound s := fun t =>
  let ⟨h1, h2, h3, h4, h5⟩ := slots t
  ⟨h1, h2, h3, h4, h5, fun r hr => stored t r (by simpa using hr)⟩

theorem busy_library : LibrarySound busy := LibrarySound.of_checks (by decide) (by decide)

theorem retract_library : LibrarySound retract := LibrarySound.of_checks (by decide) (by decide)

theorem busy_users : UserLaw busy where
  toSiteLaw := busy_sites
  library := busy_library
  users := by decide
  copies := forall_heads ⟨by intro c w _ hc hw; cases hc; cases hw; decide,
    by intro c w _ hc hw; cases hc; cases hw; decide,
    fun c w h => absurd h (by decide), fun c w h => absurd h (by decide)⟩
  named := by
    have h : ∀ n : Fin 96, ∀ t ∈ busy.typeAt n, (busy.typeSlot t).state ≠ .absent := by decide
    exact h

theorem busy_links : LinksSound busy
  | .cell => ⟨by decide, by decide, by decide⟩
  | .head .h0 => ⟨by decide, by decide, by decide⟩
  | .head .h1 => ⟨by decide, by decide, by decide⟩
  | .head .h2 => ⟨by decide, by decide, by decide⟩
  | .head .h3 => ⟨by decide, by decide, by decide⟩

theorem corner_sound : CornerSound Corner.reset := ⟨by decide, by decide⟩

theorem busy_fronts : FrontsSound busy := by
  refine forall_heads ⟨?_, ?_, ?_, ?_⟩ <;>
    exact ⟨corner_sound, corner_sound, corner_sound, corner_sound, by decide, by decide, by decide,
      by decide, by decide, by decide, by decide⟩

/-- The law of the sites' entries, in a form that is decided, for sites no attempt has been made on. -/
theorem SitesSound.of_checks {s : State}
    (sites : ∀ n : Fin 96, ∀ e ∈ s.site n, (e.x ≤ 65535 ∧ e.y ≤ 65535) ∧
      (1 ≤ e.keepOut.length ∧ e.keepOut.length ≤ 6) ∧ e.keepOut.Nodup ∧ e.attempts = 0 ∧
      e.last = none ∧ e.state ≠ .lockedOut ∧
      ∀ h ∈ allHeads, ¬ (e.state = .claimed h .rejected ∨ e.state = .pressing h .rejected)) :
    SitesSound s := by
  intro n e he
  obtain ⟨h1, h2, h3, h4, h5, h6, h7⟩ := sites n e he
  exact ⟨h1, h2, h3, by omega, by omega, fun _ => ⟨h4, h5⟩, fun hl => absurd hl h6,
    fun _ _ => ⟨h4, h5⟩, fun h hr => absurd hr (h7 h (mem_allHeads h))⟩

theorem busy_siteEntries : SitesSound busy := SitesSound.of_checks (by decide)

/-- UNLOAD of a CLAIMED site whose type is DRAINING, with its one user the claim's. -/
theorem witness_UnloadMakesTheSiteEmpty_draining :
    busy.takes .cell = true ∧ (10 : Fin 96).val = (10 : Byte).toNat ∧ busy.board.state = .isOpen ∧
    busy.site 10 = some (site [4, 5] (.claimed .h0 .loaded)) ∧
    (busy.monitor .h0).claim = some claim10 ∧ claim10.site = 10 ∧
    (busy.monitor .h0).copy = some copy5 ∧ (busy.typeSlot copy5.typeNo).state = .draining ∧
    (busy.typeSlot copy5.typeNo).users = 1 := by decide

theorem witness_LoadMakesTheSiteLoaded_sound : SitesSound opened := SitesSound.of_checks (by decide)

theorem retract_sites : SiteLaw retract :=
  SiteLaw.of_checks (forall_heads (by
    refine ⟨?_, ?_, ?_, ?_⟩ <;>
    exact HeadSound.of_checks (by decide) (by decide) (by decide) (by decide) (by decide)
      (by decide) (by decide) (by decide) (by decide))) (by decide) (by decide) (by decide) rfl rfl
      (by decide)

theorem onlyWaiting_sites : SiteLaw onlyWaiting :=
  SiteLaw.of_checks (forall_heads (by
    refine ⟨?_, ?_, ?_, ?_⟩ <;>
    exact HeadSound.of_checks (by decide) (by decide) (by decide) (by decide) (by decide)
      (by decide) (by decide) (by decide) (by decide))) (by decide) (by decide) (by decide) rfl rfl
      (by decide)

theorem witness_PurgeTypeMakesTheTypeAbsent :
    (base.takes .cell = true ∧ ([] : List Byte).length ≠ 1 ∧ 47 < (48 : Byte).toNat ∧
      (base.typeSlot 47).state = .absent) ∧
    (busy.takes .cell = true ∧ (busy.typeSlot 5).state = .draining) ∧
    (opened.takes .cell = true ∧ (opened.typeSlot 5).state = .ready ∧
      opened.site 10 = some (site [4, 5] .loaded) ∧ (site [4, 5] .loaded).typeNo = 5) ∧
    ((typeIn .broken 0 none).takes .cell = true ∧ ((typeIn .broken 0 none).typeSlot 5).state = .broken ∧
      ∀ n : Fin 96, ∀ e ∈ (typeIn .broken 0 none).site n, e.typeNo ≠ 5) ∧
    ((busy.typeSlot 7).state = .ready ∧ ∀ n : Fin 96, ∀ e ∈ busy.site n, e.typeNo ≠ 7) ∧
    UserLaw busy := ⟨by decide, by decide, by decide, by decide, by decide, busy_users⟩

/-- The heads of `busy` and of `retract`: one in each case of an event that ends every stroke. -/
theorem busy_cases :
    ((busy.monitor .h0).state = .armed ∧ (busy.monitor .h0).claim = some claim10) ∧
    ((busy.monitor .h1).state.inStroke = true ∧
      (busy.monitor .h1).claim = some { site := 13, restrike := false } ∧
      (busy.monitor .h1).copy = some { copy5 with typeNo := 6 } ∧
      (busy.monitor .h1).stroke = some { begun with contactPosition := some 12500 }) ∧
    ((busy.monitor .h2).state = .halted ∧
      ∃ k ∈ (busy.monitor .h2).stroke, k.abort.isSome) ∧
    (∃ e ∈ busy.queue, e.head = .h3) ∧
    ((retract.monitor .h0).state = .retract ∧ (retract.monitor .h1).state = .idle) := by decide

/-- The types of `busy`: one that no ending touches, and two whose last user is among those ended, the
pending record of one readable and of the other not. -/
theorem busy_types :
    ((busy.typeSlot 7).state ≠ .draining) ∧
    (∀ i ∈ [(5 : Fin 48), 6], (busy.typeSlot i).state = .draining ∧ (busy.typeSlot i).users = 1 ∧
      (busy.monitors.toList.countP fun m => m.state.active && m.copy.map (·.typeNo) == some i) = 1) ∧
    (busy.typeSlot 5).waiting = some oneFlip ∧ (busy.typeSlot 6).waiting = some twoFlips := by decide

/-- R29, R36: ESTOP releases the users of an armed claim and of a stroke, and so installs type 5 and
breaks type 6. -/
theorem test_estop_releases_users :
    let t := after .estopAsserted busy
    (t.typeSlot 5 = { state := .ready, users := 0, faults := 1
                      active := some (.fresh type5), waiting := none }) ∧
    (t.typeSlot 6).state = .broken ∧ (t.typeSlot 6).users = 0 ∧ (t.typeSlot 6).waiting = none := by
  decide

theorem witness_BoardAbortEndsEverything :
    (base.takes .cell = true ∧ base.board.state = .noBoard ∧ aborting.takes .cell = true ∧
      aborting.board.state = .aborting) ∧
    (busy.takes .cell = true ∧ busy.board.state = .isOpen) ∧
    (retract.takes .cell = true ∧ retract.board.state = .isOpen) ∧
    (onlyWaiting.takes .cell = true ∧ onlyWaiting.board.state = .isOpen ∧
      ∀ h ∈ allHeads, ¬ ((onlyWaiting.monitor h).state.inStroke = true ∨
        (onlyWaiting.monitor h).state = .halted ∨ (onlyWaiting.monitor h).state = .retract)) ∧
    SiteLaw busy ∧ SiteLaw retract ∧ SiteLaw onlyWaiting := 
  ⟨by decide, by decide, by decide, by decide, busy_sites, retract_sites, onlyWaiting_sites⟩

theorem witness_BoardEndClosesTheBoard_sound : SiteLaw onlyWaiting := onlyWaiting_sites

theorem witness_EstopEndsEverything : SiteLaw busy ∧ SiteLaw retract ∧ armed.queue = [] :=
  ⟨busy_sites, retract_sites, rfl⟩

theorem witness_WarmResetEndsEverything :
    (busy.takes .cell = true ∧ SiteLaw busy ∧ LibrarySound busy) ∧
    (retract.takes .cell = true ∧ SiteLaw retract ∧ LibrarySound retract) ∧
    ((busy.typeSlot 7).state ≠ .draining ∧
      ((busy.typeSlot 5).state = .draining ∧ (busy.typeSlot 5).waiting = some oneFlip) ∧
      ((busy.typeSlot 6).state = .draining ∧ (busy.typeSlot 6).waiting = some twoFlips)) ∧
    oneFlip.sound ∧ ¬ twoFlips.sound :=
  ⟨⟨by decide, busy_sites, busy_library⟩, ⟨by decide, retract_sites, retract_library⟩, by decide,
    oneFlip_sound, twoFlips_not_sound⟩

/-- A release of H0's claim is at the front of `busy`'s queue. -/
theorem busy_steps : ∃ t, step busy = .next t := ⟨_, rfl⟩

theorem witness_EveryStepKeepsTheRanges :
    (∃ t, step busy = .next t) ∧ LinksSound busy ∧ FrontsSound busy ∧ LibrarySound busy ∧
      SitesSound busy ∧ HeadsSound busy :=
  ⟨busy_steps, busy_links, busy_fronts, busy_library, busy_siteEntries, busy_heads⟩

theorem witness_EveryStepKeepsTheSiteLaw :
    (∃ t, step busy = .next t) ∧ ClaimsSound busy ∧ SiteLaw busy ∧ HoldLaw busy :=
  ⟨busy_steps, busy_claims, busy_sites, busy_holds⟩

theorem witness_EveryStepKeepsTheZoneLaw : (∃ t, step busy = .next t) ∧ ZoneLaw busy :=
  ⟨busy_steps, busy_zones⟩

theorem witness_EveryStepKeepsTheSlotLaw : (∃ t, step busy = .next t) ∧ SlotLaw busy :=
  ⟨busy_steps, busy_slots⟩

theorem witness_EveryStepKeepsTheUserLaw : (∃ t, step busy = .next t) ∧ UserLaw busy :=
  ⟨busy_steps, busy_users⟩

theorem witness_LawsKeepHeadsApart :
    (Head.h0 ≠ .h1 ∧ (busy.monitor .h0).state.active = true ∧
      (busy.monitor .h1).state.active = true ∧ (busy.monitor .h0).claim = some claim10 ∧
      (busy.monitor .h1).claim = some { site := 13, restrike := false }) ∧
    ZoneLaw busy ∧ HeadsSound busy ∧ SlotLaw busy ∧ UserLaw busy ∧ HoldLaw busy ∧
    (busy.monitor .h0).grantTime = some 1234000 :=
  ⟨by decide, busy_zones, busy_heads, busy_slots, busy_users, busy_holds, rfl⟩

end Sys2Proof.Tests
end

section
/-! Force and position sensing (section 1): the facts about the front end's operations, and the five
statements of the family. -/

namespace Sys2Proof.Machine

/-! ### Sub-conversions (R3) -/

/-- The range of a converter value (R3). -/
theorem converterValue_range (x : BitVec 20) : -524288 ≤ x.toInt ∧ x.toInt ≤ 524287 := by
  have lower := x.le_toInt
  have upper := x.toInt_lt
  norm_num at lower upper
  omega

/-- The sub-conversions placed in order (R3): the median stands in the middle, and the spread is the
distance of the outer two. -/
theorem conversions_ordered (v : Conversions) : ∃ lo hi : Int,
    [v.a.toInt, v.b.toInt, v.c.toInt].Perm [lo, median v, hi] ∧ lo ≤ median v ∧ median v ≤ hi ∧
      spread v = hi - lo := by
  unfold median spread
  generalize v.a.toInt = x
  generalize v.b.toInt = y
  generalize v.c.toInt = z
  rcases le_total x y with hxy | hyx
  · rcases le_total y z with hyz | hzy
    · have hm : max (min x y) (min (max x y) z) = y := by omega
      rw [hm]
      exact ⟨x, z, .refl _, hxy, hyz, by omega⟩
    · rcases le_total x z with hxz | hzx
      · have hm : max (min x y) (min (max x y) z) = z := by omega
        rw [hm]
        exact ⟨x, y, .cons _ (.swap ..), hxz, hzy, by omega⟩
      · have hm : max (min x y) (min (max x y) z) = x := by omega
        rw [hm]
        exact ⟨z, y, List.perm_append_comm (l₁ := [x, y]) (l₂ := [z]), hzx, hxy, by omega⟩
  · rcases le_total x z with hxz | hzx
    · have hm : max (min x y) (min (max x y) z) = x := by omega
      rw [hm]
      exact ⟨y, z, .swap .., hyx, hxz, by omega⟩
    · rcases le_total y z with hyz | hzy
      · have hm : max (min x y) (min (max x y) z) = z := by omega
        rw [hm]
        exact ⟨y, x, List.perm_append_comm (l₁ := [x]) (l₂ := [y, z]), hyz, hzx, by omega⟩
      · have hm : max (min x y) (min (max x y) z) = y := by omega
        rw [hm]
        exact ⟨z, x, (List.reverse_perm [x, y, z]).symm, hzy, hyx, by omega⟩

theorem mem_conversions_range {v : Conversions} {x : Int}
    (hx : x ∈ [v.a.toInt, v.b.toInt, v.c.toInt]) : -524288 ≤ x ∧ x ≤ 524287 := by
  simp only [List.mem_cons, List.not_mem_nil, or_false] at hx
  rcases hx with rfl | rfl | rfl <;> exact converterValue_range _

theorem median_mem (v : Conversions) : median v ∈ [v.a.toInt, v.b.toInt, v.c.toInt] := by
  obtain ⟨lo, hi, perm, -⟩ := conversions_ordered v
  simp [perm.mem_iff]

theorem two_le_countP_le_median (v : Conversions) :
    2 ≤ [v.a.toInt, v.b.toInt, v.c.toInt].countP (fun x => decide (x ≤ median v)) := by
  obtain ⟨lo, hi, perm, hlo, -⟩ := conversions_ordered v
  rw [perm.countP_eq]
  simp [hlo]

theorem two_le_countP_median_le (v : Conversions) :
    2 ≤ [v.a.toInt, v.b.toInt, v.c.toInt].countP (fun x => decide (median v ≤ x)) := by
  obtain ⟨lo, hi, perm, -, hhi, -⟩ := conversions_ordered v
  rw [perm.countP_eq]
  simp [List.countP_cons, hhi]

/-- The spread is the greatest difference of two sub-conversions (R3). -/
theorem spread_greatest (v : Conversions) :
    (∀ x ∈ [v.a.toInt, v.b.toInt, v.c.toInt], ∀ y ∈ [v.a.toInt, v.b.toInt, v.c.toInt],
      x - y ≤ spread v) ∧
    ∃ x ∈ [v.a.toInt, v.b.toInt, v.c.toInt], ∃ y ∈ [v.a.toInt, v.b.toInt, v.c.toInt],
      x - y = spread v := by
  obtain ⟨lo, hi, perm, hlo, hhi, hs⟩ := conversions_ordered v
  have between : ∀ x ∈ [v.a.toInt, v.b.toInt, v.c.toInt], lo ≤ x ∧ x ≤ hi := by
    intro x hx
    rw [perm.mem_iff] at hx
    simp only [List.mem_cons, List.not_mem_nil, or_false] at hx
    omega
  refine ⟨fun x hx y hy => ?_, hi, perm.mem_iff.2 (by simp), lo, perm.mem_iff.2 (by simp), hs.symm⟩
  have := between x hx
  have := between y hy
  omega

theorem spread_range (v : Conversions) : 0 ≤ spread v ∧ spread v ≤ 1048575 := by
  obtain ⟨greatest, x, hx, y, hy, hxy⟩ := spread_greatest v
  have := greatest x hx x hx
  have := mem_conversions_range hx
  have := mem_conversions_range hy
  omega

/-! ### Corners (R4 to R7) -/

theorem isNoisy_iff (limit : Nat) (v : Conversions) :
    isNoisy limit v = true ↔ (limit : Int) < spread v := decide_eq_true_iff

theorem isSaturated_iff (v : Conversions) :
    isSaturated v = true ↔
      ∃ x ∈ [v.a.toInt, v.b.toInt, v.c.toInt], x = -524288 ∨ x = 524287 := by
  simp [isSaturated, atRail, Config.railLow, Config.railHigh, or_assoc]

theorem cornerForce_of_noisy {limit : Nat} {v : Conversions} (c : Corner)
    (noisy : isNoisy limit v = true) : cornerForce limit c v = c.held := by
  simp [cornerForce, noisy]

theorem cornerForce_of_not_noisy {limit : Nat} {v : Conversions} (c : Corner)
    (quiet : isNoisy limit v = false) : cornerForce limit c v = scaleForce (median v) c.gain := by
  simp [cornerForce, quiet]

theorem cornerAfter_of_noisy {limit : Nat} {v : Conversions} (c : Corner)
    (noisy : isNoisy limit v = true) :
    cornerAfter limit c v = { c with noiseRun := min (c.noiseRun + 1) 3 } := by
  simp [cornerAfter, noisy]

theorem cornerAfter_of_saturated {limit : Nat} {v : Conversions} (c : Corner)
    (quiet : isNoisy limit v = false) (railed : isSaturated v = true) :
    cornerAfter limit c v = { c with noiseRun := 0 } := by
  simp [cornerAfter, quiet, railed]

theorem cornerAfter_of_clean {limit : Nat} {v : Conversions} (c : Corner)
    (quiet : isNoisy limit v = false) (clean : isSaturated v = false) :
    cornerAfter limit c v = { c with held := cornerForce limit c v, noiseRun := 0 } := by
  simp [cornerAfter, quiet, clean]

/-- The nearest whole number to `m` × `gain` / 4,096, a half going up, for a median of 0 or more. -/
theorem scaleForce_of_nonneg {m : Int} (gain : Nat) (hm : 0 ≤ m) :
    4096 * scaleForce m gain - 2048 ≤ m * gain ∧ m * gain < 4096 * scaleForce m gain + 2048 := by
  rw [scaleForce, if_pos hm]
  generalize m * (gain : Int) = p
  omega

/-- The nearest whole number to `m` × `gain` / 4,096, a half going down, for a median below 0. -/
theorem scaleForce_of_neg {m : Int} (gain : Nat) (hm : m < 0) :
    4096 * scaleForce m gain - 2048 < m * gain ∧ m * gain ≤ 4096 * scaleForce m gain + 2048 := by
  rw [scaleForce, if_neg (by omega), neg_mul]
  generalize m * (gain : Int) = p
  omega

/-- A median of at most 524,288 in magnitude and a gain of at most 65,535 give a force of at most
524,288 × 65,535 / 4,096 (R7). -/
theorem scaleForce_natAbs_le {m : Int} {gain : Nat} (lower : -524288 ≤ m) (upper : m ≤ 524288)
    (hg : gain ≤ 65535) : (scaleForce m gain).natAbs ≤ 8388480 := by
  have product : |m * (gain : Int)| ≤ 524288 * 65535 := by
    rw [abs_mul]
    exact mul_le_mul (abs_le.2 ⟨lower, upper⟩) (by rw [Nat.abs_cast]; omega) (abs_nonneg _)
      (by norm_num)
  obtain ⟨above, below⟩ := abs_le.1 product
  rcases lt_or_ge m 0 with hm | hm
  · have := scaleForce_of_neg gain hm
    omega
  · have := scaleForce_of_nonneg gain hm
    omega

/-! ### Tilt (R9) -/

theorem HeadState.evaluatesTilt_iff (st : HeadState) : st.evaluatesTilt = true ↔
    st = .approach ∨ st = .engage ∨ st = .seating ∨ st = .halted := by
  cases st <;> decide

theorem sum_forces (cs : PerCorner CornerEntry) :
    [cs.c0.force, cs.c1.force, cs.c2.force, cs.c3.force].sum = grossForce cs := by
  simp [grossForce, add_assoc]

/-- The corner range is the greatest difference of two corner forces (R9). -/
theorem forceRange_greatest (cs : PerCorner CornerEntry) :
    (∀ x ∈ [cs.c0.force, cs.c1.force, cs.c2.force, cs.c3.force],
      ∀ y ∈ [cs.c0.force, cs.c1.force, cs.c2.force, cs.c3.force], x - y ≤ forceRange cs) ∧
    ∃ x ∈ [cs.c0.force, cs.c1.force, cs.c2.force, cs.c3.force],
      ∃ y ∈ [cs.c0.force, cs.c1.force, cs.c2.force, cs.c3.force], x - y = forceRange cs := by
  unfold forceRange
  generalize cs.c0.force = p
  generalize cs.c1.force = q
  generalize cs.c2.force = r
  generalize cs.c3.force = t
  have largest : max (max p q) (max r t) ∈ [p, q, r, t] := by
    simp only [List.mem_cons, List.not_mem_nil, or_false]; omega
  have smallest : min (min p q) (min r t) ∈ [p, q, r, t] := by
    simp only [List.mem_cons, List.not_mem_nil, or_false]; omega
  have between : ∀ x ∈ [p, q, r, t],
      min (min p q) (min r t) ≤ x ∧ x ≤ max (max p q) (max r t) := by
    intro x hx
    simp only [List.mem_cons, List.not_mem_nil, or_false] at hx
    omega
  exact ⟨fun x hx y hy => Int.sub_le_sub (between x hx).2 (between y hy).1, _, largest, _, smallest,
    rfl⟩

theorem forceRange_nonneg (cs : PerCorner CornerEntry) : 0 ≤ forceRange cs := by
  simpa using (forceRange_greatest cs).1 cs.c0.force (by simp) cs.c0.force (by simp)

theorem tiltOf_of_evaluated {m : Monitor} {cs : PerCorner CornerEntry} {w : WorkingCopy}
    (copy : m.copy = some w) (state : m.state.evaluatesTilt = true)
    (floor : (w.fields.tiltFloor : Int) ≤ grossForce cs) (pos : 0 < grossForce cs) :
    tiltOf m cs = some (forceRange cs * 1000 / grossForce cs).toNat := by
  simp [tiltOf, copy, state, floor, pos]

theorem tiltOf_of_state {m : Monitor} (cs : PerCorner CornerEntry)
    (state : m.state.evaluatesTilt ≠ true) : tiltOf m cs = none := by
  unfold tiltOf
  cases m.copy <;> simp [state]

theorem tiltOf_of_force {m : Monitor} {cs : PerCorner CornerEntry} {w : WorkingCopy}
    (copy : m.copy = some w)
    (low : grossForce cs < w.fields.tiltFloor ∨ grossForce cs ≤ 0) : tiltOf m cs = none := by
  simp only [tiltOf, copy]
  rw [if_neg]
  rintro ⟨-, floor, pos⟩
  omega

/-! ### Restarts of the tare tracker (R16) -/

theorem FrontEnd.track_of_restart {f : FrontEnd} {st : HeadState} {r : SampleRecord} (p : Period)
    (outside : st.inStroke = false) (cause : r.anyNoisyRun = true ∨ r.anySaturated = true) :
    f.track p st r = f.tare.restart := by
  simp [FrontEnd.track, outside, cause]

theorem State.setPeriod_self (s : State) : s.setPeriod s.period = s := if_pos rfl

theorem State.setPeriod_front {s : State} {p : Period} (h : Head) (hp : p ≠ s.period) :
    (s.setPeriod p).front h = (s.front h).restartTare := by
  rw [State.setPeriod, if_neg hp]
  exact PerHead.get_map ..

/-- An abort restarts the tracker of its head, and touches the front end in nothing else (R136). -/
theorem State.abortStroke_front {s : State} {h : Head} {c : Claim} {w : WorkingCopy} {k : Stroke}
    (cause : Cause) (further : List Cause) (claim : (s.monitor h).claim = some c)
    (copy : (s.monitor h).copy = some w) (stroke : (s.monitor h).stroke = some k) :
    (s.abortStroke h cause further).state.front h = (s.front h).restartTare := by
  simp [State.abortStroke, claim, copy, stroke, State.eventAborted]

/-- A verdict restarts the tracker of its head, and touches the front end in nothing else (R100). -/
theorem State.giveVerdict_front {s : State} {h : Head} {c : Claim} {w : WorkingCopy} {k : Stroke}
    (claim : (s.monitor h).claim = some c) (copy : (s.monitor h).copy = some w)
    (stroke : (s.monitor h).stroke = some k) :
    (s.giveVerdict h).state.front h = (s.front h).restartTare := by
  simp [State.giveVerdict, claim, copy, stroke, State.eventVerdict]

/-! ### CONFIGURE_HEAD (R17, R18) -/

/-- The fields of CONFIGURE_HEAD in their order (R17). -/
def configurationPayload (h : Head) (gains : PerCorner Nat) (noise hysteresis code : Nat) :
    List Byte :=
  u8 (headNo h) ++ u16 gains.c0 ++ u16 gains.c1 ++ u16 gains.c2 ++ u16 gains.c3 ++ u16 noise
    ++ u16 hysteresis ++ u8 code

section
variable (h : Head) (gains : PerCorner Nat) (noise hysteresis code : Nat)

theorem length_configurationPayload :
    (configurationPayload h gains noise hysteresis code).length = 14 := rfl

/-- Two bytes read back are the number sent (R176). -/
theorem u16_read {n : Nat} (hn : n < 65536) :
    (BitVec.ofNat 8 (n / 256)).toNat * 256 + (BitVec.ofNat 8 n).toNat = n := by
  simp only [BitVec.toNat_ofNat]
  omega

theorem headOf_configurationPayload :
    headOf (at8 (configurationPayload h gains noise hysteresis code) 0) = some h := by
  cases h <;> rfl

theorem gainsOf_configurationPayload (hg : ∀ g ∈ gains.toList, g < 65536) :
    gainsOf (configurationPayload h gains noise hysteresis code) = gains := by
  simp only [PerCorner.toList, List.forall_mem_cons] at hg
  obtain ⟨h0, h1, h2, h3, -⟩ := hg
  exact congr (congr (congr (congrArg PerCorner.mk (u16_read h0)) (u16_read h1)) (u16_read h2))
    (u16_read h3)

theorem noise_configurationPayload (hn : noise < 65536) :
    at16 (configurationPayload h gains noise hysteresis code) 9 = noise := u16_read hn

theorem hysteresis_configurationPayload (hh : hysteresis < 65536) :
    at16 (configurationPayload h gains noise hysteresis code) 11 = hysteresis := u16_read hh

end

theorem stabilityOf_eq_some_iff (code : Nat) (st : StabilityTime) :
    stabilityOf code = some st ↔ code = st.code := by
  constructor
  · intro hs
    unfold stabilityOf at hs
    split at hs <;> cases hs <;> rfl
  · rintro rfl
    cases st <;> rfl

theorem stabilityOf_configurationPayload (h : Head) (gains : PerCorner Nat) (noise hysteresis : Nat)
    (st : StabilityTime) :
    stabilityOf (at8 (configurationPayload h gains noise hysteresis st.code) 13) = some st := by
  cases st <;> rfl

theorem headOf_eq_none {n : Nat} (hn : 3 < n) : headOf n = none := by
  match n, hn with
  | n + 4, _ => rfl

theorem stabilityOf_eq_none {n : Nat} (hn : 3 < n) : stabilityOf n = none := by
  match n, hn with
  | n + 4, _ => rfl

theorem configureHeadAnswer_badLength {payload : List Byte} (s : State)
    (len : payload.length ≠ 14) : configureHeadAnswer payload s = s.turnDown .badLength :=
  if_pos len

theorem configureHeadAnswer_badValue {payload : List Byte} (s : State) (len : payload.length = 14)
    (bad : 3 < at8 payload 0 ∨ 3 < at8 payload 13) :
    configureHeadAnswer payload s = s.turnDown .badValue := by
  unfold configureHeadAnswer
  rw [if_neg (not_not.2 len)]
  rcases bad with head | code
  · rw [headOf_eq_none head]
  · rw [stabilityOf_eq_none code]
    cases headOf (at8 payload 0) <;> rfl

/-- CONFIGURE_HEAD with a head and a stability time (R17). -/
theorem configureHeadAnswer_of {payload : List Byte} {h : Head} {stability : StabilityTime}
    (s : State) (len : payload.length = 14) (head : headOf (at8 payload 0) = some h)
    (code : stabilityOf (at8 payload 13) = some stability) :
    configureHeadAnswer payload s =
      if (s.monitor h).state ≠ .idle then s.turnDown .headState
      else s.configure h stability payload := by
  unfold configureHeadAnswer
  rw [if_neg (not_not.2 len), head, code]

/-- The values in force after CONFIGURE_HEAD, as the reply carries them (R18). -/
theorem configurationBytes_configure (f : FrontEnd) (h : Head) (gains : PerCorner Nat)
    (noise hysteresis : Nat) (st : StabilityTime) :
    configurationBytes h (f.configure gains noise hysteresis st) =
      u8 (headNo h) ++ u16 (max gains.c0 1) ++ u16 (max gains.c1 1) ++ u16 (max gains.c2 1)
        ++ u16 (max gains.c3 1) ++ u16 noise ++ u16 (min hysteresis 2000) ++ u8 st.code := by
  simp [configurationBytes, FrontEnd.configure, PerCorner.zipWith, PerCorner.toList]

/-- A request of the cell link that is answered by a front end replaced (R169). -/
theorem State.request_setFront {s : State} {a : State → Answer} (stamps : Stamps a)
    {kind tag : Byte} {payload : List Byte} {h : Head} {f : FrontEnd} {st : Status}
    {bytes : List Byte} (takes : s.takes .cell = true) (short : payload.length ≤ 250)
    (answer : a (s.withReply .cell kind tag st bytes) =
      ((s.withReply .cell kind tag st bytes).setFront h f).answer st bytes) :
    s.request .cell kind tag payload a = (s.setFront h f).withReply .cell kind tag st bytes :=
  State.request_of stamps takes short answer

section
variable {s : State} {h : Head} {gains : PerCorner Nat} {noise hysteresis : Nat} (tag : Byte)
  (stability : StabilityTime)

theorem exec_configureHead_of_not_idle (takes : s.takes .cell = true)
    (busy : (s.monitor h).state ≠ .idle) :
    exec (.configureHead tag (configurationPayload h gains noise hysteresis stability.code)) s =
      .next (s.withReply .cell 32 tag .headState []) := by
  refine congrArg _ (State.request_turnDown (configureHeadAnswer_stamps _) takes
    (by rw [length_configurationPayload]; omega) ?_)
  rw [configureHeadAnswer_of _ (length_configurationPayload ..) (headOf_configurationPayload ..)
    (stabilityOf_configurationPayload ..), State.withReply_monitor, if_pos busy]

/-- CONFIGURE_HEAD of an IDLE head, its values in the width of their fields: the configuration is
replaced and told (R18). -/
theorem exec_configureHead_of_idle (takes : s.takes .cell = true)
    (hg : ∀ g ∈ gains.toList, g < 65536) (hn : noise < 65536) (hh : hysteresis < 65536)
    (idle : (s.monitor h).state = .idle) :
    exec (.configureHead tag (configurationPayload h gains noise hysteresis stability.code)) s =
      .next ((s.setFront h ((s.front h).configure gains noise hysteresis stability)).withReply
        .cell 32 tag (takenStatus (gains.toList.any (· == 0) || decide (2000 < hysteresis)))
        (configurationBytes h ((s.front h).configure gains noise hysteresis stability))) := by
  refine congrArg _ (State.request_setFront (configureHeadAnswer_stamps _) takes
    (by rw [length_configurationPayload]; omega) ?_)
  rw [configureHeadAnswer_of _ (length_configurationPayload ..) (headOf_configurationPayload ..)
    (stabilityOf_configurationPayload ..), State.withReply_monitor, if_neg (not_not.2 idle)]
  simp only [State.configure, configurationClamped, gainsOf_configurationPayload _ _ _ _ _ hg,
    noise_configurationPayload _ _ _ _ _ hn, hysteresis_configurationPayload _ _ _ _ _ hh,
    State.withReply_front]

end

theorem takenStatus_of_iff {clamped : Bool} {P : Prop} [Decidable P] (hP : clamped = true ↔ P) :
    takenStatus clamped = if P then .clamped else .ok := by
  simp [takenStatus, hP]

/-! ### The statements -/

/-- Settles O4: the two roundings of `scaleForce`, and the ranges of the median and of the gain. -/
theorem cornerForceRoundsHalfAwayFromZero : Obligations.CornerForceRoundsHalfAwayFromZero := by
  intro limit c v _ hg
  refine ⟨fun quiet => ?_, cornerForce_of_noisy c⟩
  rw [cornerForce_of_not_noisy c quiet]
  obtain ⟨lower, upper⟩ := mem_conversions_range (median_mem v)
  exact ⟨scaleForce_of_nonneg c.gain, scaleForce_of_neg c.gain,
    scaleForce_natAbs_le lower (by omega) hg⟩

/-- Settles O5: the median and the spread from the sub-conversions placed in order, and what the
corner keeps by its three cases: NOISY, SATURATED alone, and clean. -/
theorem cornerIsClassified : Obligations.CornerIsClassified := by
  intro limit c v xs after entry
  obtain ⟨greatest, attained⟩ := spread_greatest v
  refine ⟨⟨median_mem v, two_le_countP_le_median v, two_le_countP_median_le v⟩,
    ⟨greatest, attained, spread_range v⟩, isNoisy_iff limit v, isSaturated_iff v,
    fun noisy => ?_, fun quiet => ?_, fun quiet railed => ?_, fun quiet clean => ?_,
    decide_eq_true_iff, rfl, rfl⟩
  · have kept : after = _ := cornerAfter_of_noisy c noisy
    exact ⟨cornerForce_of_noisy c noisy, by rw [kept], by rw [kept]⟩
  · cases saturation : isSaturated v with
    | true => exact congrArg Corner.noiseRun (cornerAfter_of_saturated c quiet saturation)
    | false => exact congrArg Corner.noiseRun (cornerAfter_of_clean c quiet saturation)
  · have kept : after = _ := cornerAfter_of_saturated c quiet railed
    rw [kept]
  · have renewed : after = _ := cornerAfter_of_clean c quiet clean
    rw [renewed]
    rfl

/-- Settles O6: by the cases of `tiltOf`, the quotient of the range by the gross force being one of
whole numbers of 0 or more. -/
theorem tiltIsTheCornerRangePerMille : Obligations.TiltIsTheCornerRangePerMille := by
  intro m cs fs evaluated
  have sum : fs.sum = grossForce cs := sum_forces cs
  have states : m.state.evaluatesTilt = true ↔ evaluated := m.state.evaluatesTilt_iff
  rw [sum]
  refine ⟨fun w copy state floor pos => ?_, fun state => ?_, fun w copy => tiltOf_of_force copy⟩
  · obtain ⟨greatest, attained⟩ := forceRange_greatest cs
    have nonneg : 0 ≤ forceRange cs * 1000 / grossForce cs :=
      Int.ediv_nonneg (mul_nonneg (forceRange_nonneg cs) (by norm_num)) pos.le
    refine ⟨_, forceRange cs, tiltOf_of_evaluated copy (states.2 state) floor pos, greatest, attained,
      ?_⟩
    rw [Int.toNat_of_nonneg nonneg]
    exact ⟨Int.ediv_mul_le _ pos.ne', Int.lt_ediv_add_one_mul_self _ pos⟩
  · exact tiltOf_of_state cs (mt states.1 state)

/-- Settles O8: one lemma for each of the five restarts. -/
theorem tareTrackerRestarts : Obligations.TareTrackerRestarts := by
  refine ⟨fun f p st r => FrontEnd.track_of_restart p, fun _ _ _ _ _ => rfl, fun s p h hp => ?_,
    State.setPeriod_self, fun s h c w k cause further claim copy stroke => ⟨?_, ?_⟩⟩
  · rw [State.setPeriod_front h hp]; rfl
  · rw [State.abortStroke_front cause further claim copy stroke]; rfl
  · rw [State.giveVerdict_front claim copy stroke]; rfl

/-- Settles O12: the answer of CONFIGURE_HEAD in its cases, and the payload read back. -/
theorem configureHeadReplacesTheConfiguration :
    Obligations.ConfigureHeadReplacesTheConfiguration := by
  intro tag s takes
  refine ⟨fun payload len hp => ?_, fun payload len bad => ?_,
    fun h g0 g1 g2 g3 noise hyst code stability h0 h1 h2 h3 hn hh hcode => ?_⟩
  · exact congrArg _ (State.request_turnDown (configureHeadAnswer_stamps payload) takes hp
      (configureHeadAnswer_badLength _ len))
  · exact congrArg _ (State.request_turnDown (configureHeadAnswer_stamps payload) takes
      (by omega) (configureHeadAnswer_badValue _ len bad))
  · obtain rfl : code = stability.code := (stabilityOf_eq_some_iff _ _).1 hcode
    refine ⟨exec_configureHead_of_not_idle (gains := ⟨g0, g1, g2, g3⟩) tag stability takes,
      fun idle => ?_⟩
    have gains_fit : ∀ g ∈ (⟨g0, g1, g2, g3⟩ : PerCorner Nat).toList, g < 65536 := by
      simp [PerCorner.toList, h0, h1, h2, h3]
    have clamped : takenStatus ((⟨g0, g1, g2, g3⟩ : PerCorner Nat).toList.any (· == 0) ||
        decide (2000 < hyst)) =
          if g0 = 0 ∨ g1 = 0 ∨ g2 = 0 ∨ g3 = 0 ∨ 2000 < hyst then .clamped else .ok :=
      takenStatus_of_iff (by simp [PerCorner.toList, or_assoc])
    have taken := exec_configureHead_of_idle (h := h) tag stability takes gains_fit hn hh idle
    rwa [clamped, configurationBytes_configure] at taken

end Sys2Proof.Machine

end

section
/-! The Envelope Library (section 2): LOAD_TYPE of a sound record, its layout read back and the record
placed, and PURGE_TYPE. -/

namespace Sys2Proof.Machine

/-! ### The layout of LOAD_TYPE read back (R176, R178) -/

theorem at8_drop (p : List Byte) (i k : Nat) : at8 (p.drop i) k = at8 p (i + k) := by
  simp [at8]

theorem at16_drop (p : List Byte) (i k : Nat) : at16 (p.drop i) k = at16 p (i + k) := by
  simp only [at16, at8_drop, add_assoc]

/-- One byte read back is the number sent (R176). -/
theorem u8_read {n : Nat} (hn : n < 256) : (BitVec.ofNat 8 n).toNat = n :=
  Nat.mod_eq_of_lt hn

/-- Four bytes read back are the number sent (R176). -/
theorem u32_read {n : Nat} (hn : n < 4294967296) :
    ((BitVec.ofNat 8 (n / 16777216)).toNat * 256 + (BitVec.ofNat 8 (n / 65536)).toNat) * 65536
      + ((BitVec.ofNat 8 (n / 256)).toNat * 256 + (BitVec.ofNat 8 n).toNat) = n := by
  simp only [BitVec.toNat_ofNat]
  omega

/-- Every field of a group fits its two bytes (R178). -/
def GroupFits (g : Group) : Prop :=
  g.entry < 65536 ∧ g.pins < 65536 ∧ g.fmin < 65536 ∧ g.fmax < 65536 ∧ g.settle < 65536

/-- A group read back from the place where its entry begins (R178). -/
theorem groupAt_of_drop {p rest : List Byte} {i : Nat} {g : Group}
    (fits : GroupFits g) (place : p.drop i = groupBytes g ++ rest) : groupAt p i = g := by
  obtain ⟨entry, pins, fmin, fmax, settle⟩ := fits
  have shifted : groupAt p i = groupAt (p.drop i) 0 := by
    simp only [groupAt, at16_drop, zero_add, add_zero]
  rw [shifted, place]
  exact congr (congr (congr (congr (congrArg Group.mk (u16_read entry)) (u16_read pins))
    (u16_read fmin)) (u16_read fmax)) (u16_read settle)

/-- The groups read back from the place where their entries begin (R178). -/
theorem groupsAt_of_drop {p : List Byte} {i : Nat} {gs : List Group}
    (fits : ∀ g ∈ gs, GroupFits g) (place : p.drop i = (gs.map groupBytes).flatten) :
    groupsAt p i gs.length = gs := by
  induction gs generalizing i with
  | nil => rfl
  | cons g gs ih =>
    rw [List.forall_mem_cons] at fits
    obtain ⟨first, others⟩ := fits
    have next : p.drop (i + 10) = (gs.map groupBytes).flatten := by
      rw [← List.drop_drop, place]; rfl
    exact congr (congrArg List.cons (groupAt_of_drop first place)) (ih others next)

theorem length_typeBytes (t : Fin 48) (r : TypeRecord) :
    (typeBytes t r).length = 38 + 10 * r.groups.length := by
  have group : (List.length ∘ groupBytes) = fun _ => 10 := rfl
  have entries : (r.groups.map groupBytes).flatten.length = 10 * r.groups.length := by
    simp [List.length_flatten, group, mul_comm]
  simp only [typeBytes, u8, u16, u32, List.length_append, List.length_cons, List.length_nil, entries]

theorem typeOf_val (t : Fin 48) : typeOf t.val = some t := dif_pos t.isLt

theorem typeNo_typeBytes (t : Fin 48) (r : TypeRecord) : at8 (typeBytes t r) 0 = t.val := by
  simp only [typeBytes, List.append_assoc]
  exact u8_read (by omega)

theorem groupCount_typeBytes {r : TypeRecord} (t : Fin 48) (few : r.groups.length < 256) :
    at8 (typeBytes t r) 12 = r.groups.length := by
  simp only [typeBytes, List.append_assoc]
  exact u8_read few

theorem drop_typeBytes (t : Fin 48) (r : TypeRecord) :
    (typeBytes t r).drop 38 = (r.groups.map groupBytes).flatten := by
  simp only [typeBytes, List.append_assoc]
  rfl

/-- The layout gives the record back (R178). -/
theorem recordOf_typeBytes {r : TypeRecord} (t : Fin 48) (fits : RecordFits r) :
    recordOf (typeBytes t r) = r := by
  obtain ⟨⟨pinTotal, contact, approach, start, search, slope, overtravel, dwell, tilt, stall,
    stroke⟩, ⟨confirm, window, few⟩, ⟨force, floor⟩, groups⟩ := fits
  have group_list : groupsAt (typeBytes t r) 38 (at8 (typeBytes t r) 12) = r.groups := by
    rw [groupCount_typeBytes t few]
    exact groupsAt_of_drop groups (drop_typeBytes t r)
  rw [recordOf, group_list]
  simp only [typeBytes, List.append_assoc]
  exact (TypeRecord.mk.injEq ..).mpr ⟨
    (congrArg (BitVec.ofNat 32) (u32_read r.partCode.isLt)).trans (by simp), u16_read pinTotal,
    u16_read contact, u8_read confirm, u16_read approach, rfl, u16_read start, u16_read search,
    u16_read slope, u8_read window, u32_read force, u16_read overtravel, u16_read dwell,
    u16_read tilt, u32_read floor, u16_read stall, u16_read stroke⟩

/-! ### The record checks (R24) -/

theorem within_iff (lo hi n : Nat) : within lo hi n = true ↔ lo ≤ n ∧ n ≤ hi := decide_eq_true_iff

theorem check_eq_none_iff (n : Nat) (ok : Bool) : check n ok = none ↔ ok = true := by
  cases ok <;> simp [check]

theorem checkEach_eq_none_iff (n k : Nat) (ok : Group → Bool) (gs : List Group) :
    checkEach n ok k gs = none ↔ ∀ g ∈ gs, ok g = true := by
  induction gs generalizing k with
  | nil => simp [checkEach]
  | cons g gs ih =>
    rw [checkEach, List.forall_mem_cons]
    cases ok g <;> simp [ih]

/-- Check 1: the number of groups of a record that passes (R24). -/
theorem groupCount_of_sound {r : TypeRecord} (sound : firstFailure r = none) :
    1 ≤ r.groups.length ∧ r.groups.length ≤ 8 := by
  obtain ⟨count, -⟩ := (Option.orElse_eq_none ..).1 sound
  rwa [check_eq_none_iff, within_iff] at count

/-- The ranges of R24 lie within the widths of R178. -/
theorem recordFits_of_sound {r : TypeRecord} (sound : firstFailure r = none) : RecordFits r := by
  simp only [firstFailure, Option.orElse_eq_none, check_eq_none_iff,
    checkEach_eq_none_iff, Bool.and_eq_true, within_iff] at sound
  obtain ⟨count, pinTotal, contact, confirm, approach, entries, pins, bands, -, settles, -, -, -,
    ⟨start, -⟩, search, slope, window, force, overtravel, dwell, tilt, floor, stall, stroke⟩ := sound
  refine ⟨by omega, by omega, by omega, fun g hg => ?_⟩
  have := entries g hg
  have := pins g hg
  have := bands g hg
  have := settles g hg
  omega

/-! ### Type states -/

theorem TypeState.not_absent_not_draining {st : TypeState} (steady : st = .ready ∨ st = .broken) :
    st ≠ .absent ∧ st ≠ .draining := by
  rcases steady with rfl | rfl <;> decide

/-! ### LOAD_TYPE of a record that passes (R23, R25, R27) -/

theorem loadTypeAnswer_of_sound {r : TypeRecord} (t : Fin 48) (s : State)
    (sound : firstFailure r = none) :
    loadTypeAnswer (typeBytes t r) s = s.loadRecord t r := by
  obtain ⟨one, few⟩ := groupCount_of_sound sound
  have count : at8 (typeBytes t r) 12 = r.groups.length := groupCount_typeBytes t (by omega)
  have len := length_typeBytes t r
  unfold loadTypeAnswer
  rw [if_neg (by omega), typeNo_typeBytes, typeOf_val, count]
  simp only
  rw [if_neg (by omega), if_neg (by omega), recordOf_typeBytes t (recordFits_of_sound sound)]

/-- Placing a record neither reads nor writes the cell link. -/
theorem State.placeRecord_withReply (s : State) (kind tag : Byte) (st : Status) (bytes : List Byte)
    (t : Fin 48) (r : TypeRecord) :
    (s.withReply .cell kind tag st bytes).placeRecord t r =
      (s.placeRecord t r).withReply .cell kind tag st bytes := by
  rw [State.withReply_cell, State.withCell_placeRecord, State.withReply_cell (s.placeRecord t r)]
  simp [State.withReply, State.setLink, State.link]

/-- The fields of the reply to a LOAD_TYPE taken, in the state it leaves (R23). -/
def placedBytes (t : Fin 48) (s : State) : List Byte :=
  u8 t.val ++ u8 (s.typeSlot t).state.code ++ u8 (s.typeSlot t).users ++ u8 s.pendingCount

theorem State.loadRecord_of_sound {s : State} {t : Fin 48} {r : TypeRecord}
    (sound : firstFailure r = none) :
    s.loadRecord t r = (s.placeRecord t r).answer .ok (placedBytes t (s.placeRecord t r)) := by
  rw [State.loadRecord, sound]
  rfl

/-- LOAD_TYPE of a record that passes: it is placed, and the reply tells what it left (R23, R25). -/
theorem exec_loadType_of_sound {s : State} {r : TypeRecord} (tag : Byte) (t : Fin 48)
    (takes : s.takes .cell = true) (sound : firstFailure r = none) :
    exec (.loadType tag (typeBytes t r)) s = .next ((s.placeRecord t r).withReply .cell 40 tag .ok
      (placedBytes t (s.placeRecord t r))) := by
  obtain ⟨-, few⟩ := groupCount_of_sound sound
  refine congrArg _ (State.request_of (st := .ok) (bytes := placedBytes t (s.placeRecord t r))
    (loadTypeAnswer_stamps _) takes (by rw [length_typeBytes]; omega) ?_)
  rw [loadTypeAnswer_of_sound t _ sound, State.loadRecord_of_sound sound,
    State.placeRecord_withReply]
  rfl

/-- A type without users takes the record as its active record, and the queue is passed (R25, R27). -/
theorem State.placeRecord_of_unused {s : State} {t : Fin 48} (r : TypeRecord)
    (unused : (s.typeSlot t).state = .absent ∨
      (s.typeSlot t).state ≠ .draining ∧ (s.typeSlot t).users = 0) :
    s.placeRecord t r = (s.setType t { s.typeSlot t with
      state := .ready, active := some (.fresh r), faults := 0 }).pass none := by
  rcases (s.typeSlot t).place_cases r with ⟨draining, -⟩ | ⟨-, present, used, -⟩ | ⟨-, -, placed⟩
  · simp [draining] at unused
  · rcases unused with absent | ⟨-, free⟩
    · exact absurd absent present
    · omega
  · rw [State.placeRecord, placed]
    rfl

/-- A type with users, or DRAINING, takes the record as its pending record, and no pass is made
(R25, R27). -/
theorem State.placeRecord_of_used {s : State} {t : Fin 48} (r : TypeRecord)
    (used : (s.typeSlot t).state = .draining ∨
      (s.typeSlot t).state ≠ .absent ∧ 1 ≤ (s.typeSlot t).users) :
    s.placeRecord t r = s.setType t { s.typeSlot t with
      state := .draining, waiting := some (.fresh r) } := by
  have placed : (s.typeSlot t).place r =
      { s.typeSlot t with state := .draining, waiting := some (.fresh r) } := by
    rcases (s.typeSlot t).place_cases r with ⟨draining, placed⟩ | ⟨-, -, -, placed⟩ |
      ⟨steady, unused, -⟩
    · rw [placed, ← draining]
    · exact placed
    · rcases used with draining | ⟨present, users⟩
      · exact absurd draining steady
      · rcases unused with absent | free
        · exact absurd absent present
        · omega
  rw [State.placeRecord, placed]
  rfl

/-! ### PURGE_TYPE (R37) -/

theorem State.typeNamed_iff (s : State) (t : Fin 48) :
    s.typeNamed t = true ↔ ∃ n e, s.site n = some e ∧ e.typeNo = t := by
  simp only [State.typeNamed, List.any_eq_true, beq_iff_eq, Vector.mem_toList_iff,
    Option.map_eq_some_iff]
  constructor
  · rintro ⟨_, listed, e, rfl, names⟩
    obtain ⟨i, hi, entry⟩ := Vector.mem_iff_getElem.1 listed
    exact ⟨⟨i, hi⟩, e, entry, names⟩
  · rintro ⟨n, e, entry, names⟩
    exact ⟨s.site n, Vector.getElem_mem n.isLt, e, entry, names⟩

/-- In a state that meets the law of users, a type that no site names has no users (R28). -/
theorem UserLaw.users_eq_zero {s : State} (law : UserLaw s) {t : Fin 48}
    (unnamed : ∀ n e, s.site n = some e → e.typeNo ≠ t) : (s.typeSlot t).users = 0 := by
  have unused (h : Head) : (s.monitor h).uses t ≠ true := by
    intro uses
    simp only [Monitor.uses, Bool.and_eq_true, beq_iff_eq, Option.map_eq_some_iff] at uses
    obtain ⟨active, w, copy, rfl⟩ := uses
    have granted : (s.monitor h).state ≠ .idle ∧ (s.monitor h).state ≠ .waiting := by
      constructor <;> intro state <;> rw [state] at active <;> exact absurd active (by decide)
    obtain ⟨claimed, -⟩ := (law.heads h).claimed granted.1 granted.2
    obtain ⟨c, claim⟩ := Option.isSome_iff_exists.1 claimed
    obtain ⟨e, site, names⟩ := Option.map_eq_some_iff.1 (law.copies h c w active claim copy)
    exact unnamed c.site e site names
  rw [law.users, List.countP_eq_zero]
  simp only [PerHead.toList, List.forall_mem_cons]
  exact ⟨unused .h0, unused .h1, unused .h2, unused .h3, List.forall_mem_nil _⟩

theorem purgeTypeAnswer_badLength {payload : List Byte} (s : State) (len : payload.length ≠ 1) :
    purgeTypeAnswer payload s = s.turnDown .badLength := if_pos len

theorem purgeTypeAnswer_badValue {b : Byte} (s : State) (bad : 47 < b.toNat) :
    purgeTypeAnswer [b] s = s.turnDown .badValue := by
  have unknown : typeOf (at8 [b] 0) = none := dif_neg (by simp [at8]; omega)
  simp [purgeTypeAnswer, State.onType, unknown]

/-- PURGE_TYPE of a type number of the library (R37). -/
theorem purgeTypeAnswer_typeNo (t : Fin 48) (s : State) :
    purgeTypeAnswer (u8 t.val) s =
      if (s.typeSlot t).state = .absent then s.turnDown .typeAbsent else s.purge t := by
  have number : typeOf (at8 (u8 t.val) 0) = some t := by
    rw [show at8 (u8 t.val) 0 = t.val from u8_read (by omega), typeOf_val]
  rw [purgeTypeAnswer, State.onType, number,
    if_neg (show ¬ (u8 t.val).length ≠ 1 from not_not.2 rfl)]

theorem exec_purgeType_turnDown {s : State} {payload : List Byte} {st : Status} (tag : Byte)
    (takes : s.takes .cell = true) (short : payload.length ≤ 250)
    (refused : purgeTypeAnswer payload (s.withReply .cell 41 tag st []) =
      (s.withReply .cell 41 tag st []).turnDown st) :
    exec (.purgeType tag payload) s = .next (s.withReply .cell 41 tag st []) :=
  congrArg _ (State.request_turnDown (purgeTypeAnswer_stamps payload) takes short refused)

/-- PURGE_TYPE of a type that is READY or BROKEN and that no site names (R37). -/
theorem exec_purgeType_of_unnamed {s : State} {t : Fin 48} (tag : Byte)
    (takes : s.takes .cell = true)
    (steady : (s.typeSlot t).state = .ready ∨ (s.typeSlot t).state = .broken)
    (unnamed : s.typeNamed t = false) :
    exec (.purgeType tag (u8 t.val)) s =
      .next ((s.setType t .reset).withReply .cell 41 tag .ok (u8 t.val)) := by
  obtain ⟨present, settled⟩ := TypeState.not_absent_not_draining steady
  refine congrArg _ (State.request_of (st := .ok) (bytes := u8 t.val) (purgeTypeAnswer_stamps _)
    takes (by simp [u8]) ?_)
  rw [purgeTypeAnswer_typeNo, State.purge, State.withReply_typeSlot, if_neg present,
    if_neg settled, State.withReply_cell, State.withCell_typeNamed, unnamed]
  rfl

/-! ### The statements -/

/-- Settles O15: the layout read back gives the record, and the record is placed by the two cases of
its type. -/
theorem loadTypePlacesTheRecord : Obligations.LoadTypePlacesTheRecord := by
  intro tag t r s takes sound slot stored ready held
  have taken := exec_loadType_of_sound tag t takes sound
  refine ⟨fun unused => ?_, fun used => ?_⟩
  · have placed : s.placeRecord t r = ready :=
      State.placeRecord_of_unused r (unused.imp_right fun ⟨steady, users⟩ =>
        ⟨(TypeState.not_absent_not_draining steady).2, users⟩)
    rw [placed] at taken
    exact taken
  · have placed : s.placeRecord t r = held :=
      State.placeRecord_of_used r (used.symm.imp_right fun ⟨steady, users⟩ =>
        ⟨(TypeState.not_absent_not_draining steady).1, users⟩)
    have draining : held.typeSlot t =
        { slot with state := .draining, waiting := some stored } := by simp [held]
    rw [placed, placedBytes, draining] at taken
    exact taken

/-- Settles O16: the checks of PURGE_TYPE in their order; a head that is a user would have its claim on
a site of the type. -/
theorem purgeTypeMakesTheTypeAbsent : Obligations.PurgeTypeMakesTheTypeAbsent := by
  intro tag s takes
  have short (t : Fin 48) : (u8 t.val).length ≤ 250 := by simp [u8]
  refine ⟨fun payload len hp => ?_, fun b bad => ?_, fun t absent => ?_, fun t draining => ?_,
    fun t n e steady site names => ?_,
    fun t steady unnamed => ⟨?_, fun law => law.users_eq_zero unnamed⟩⟩
  · exact exec_purgeType_turnDown tag takes hp (purgeTypeAnswer_badLength _ len)
  · exact exec_purgeType_turnDown tag takes (by simp) (purgeTypeAnswer_badValue _ bad)
  · refine exec_purgeType_turnDown tag takes (short t) ?_
    simp [purgeTypeAnswer_typeNo, absent]
  · refine exec_purgeType_turnDown tag takes (short t) ?_
    simp [purgeTypeAnswer_typeNo, State.purge, draining]
  · obtain ⟨present, settled⟩ := TypeState.not_absent_not_draining steady
    have named : s.typeNamed t = true := (s.typeNamed_iff t).2 ⟨n, e, site, names⟩
    refine exec_purgeType_turnDown tag takes (short t) ?_
    rw [purgeTypeAnswer_typeNo, State.purge, State.withReply_typeSlot, State.withReply_cell,
      State.withCell_typeNamed, named, if_neg present, if_neg settled, if_pos rfl]
  · have no_site : s.typeNamed t = false := by
      rw [Bool.eq_false_iff, ne_eq, State.typeNamed_iff]
      rintro ⟨n, e, site, names⟩
      exact unnamed n e site names
    exact exec_purgeType_of_unnamed tag takes steady no_site

end Sys2Proof.Machine

end

section
/-! Boards and sites (section 3): BOARD_BEGIN and BOARD_END, SITE_DEFINE and LOAD, and what the outcome
of a stroke makes of its site. -/

namespace Sys2Proof

/-- Some head, among the items of all. -/
theorem PerHead.any_toList_iff {α : Type} (p : PerHead α) (f : α → Bool) :
    p.toList.any f = true ↔ ∃ h, f (p.get h) = true := by
  simp [List.any_eq_true, PerHead.mem_toList]

end Sys2Proof

namespace Sys2Proof.Machine

/-! ### The outcome of a stroke (R59) -/

section
variable {e : SiteEntry} {h : Head} {g : GrantFrom}

theorem SiteEntry.apply_pass (pressing : e.state = .pressing h g) (depth : Int) :
    e.apply (.pass depth) =
      { e with state := .seated depth, attempts := e.attempts + 1, last := some .pass } := by
  rw [SiteEntry.apply, pressing]

theorem SiteEntry.apply_reject (pressing : e.state = .pressing h g) (failures : FailureSet) :
    e.apply (.reject failures) = e.fail (.reject failures) := by
  rw [SiteEntry.apply, pressing]

theorem SiteEntry.apply_abort (pressing : e.state = .pressing h g) (cause : Cause)
    (contact : Bool) : e.apply (.abort cause contact) =
      if countedAbort cause contact then e.fail (.abort cause)
      else { e with state := g.toState } := by
  rw [SiteEntry.apply, pressing]

end

theorem SiteEntry.apply_of_not_pressing {e : SiteEntry} (o : Ending)
    (steady : ∀ h g, e.state ≠ .pressing h g) : e.apply o = e := by
  unfold SiteEntry.apply
  split
  case h_1 h g pressing => exact absurd pressing (steady h g)
  case h_2 => rfl

theorem countedAbort_iff (cause : Cause) (contact : Bool) :
    countedAbort cause contact = true ↔ contact = true ∨ cause = .noContact := by
  simp [countedAbort]

/-! ### Heads and the board (R43, R44) -/

theorem State.someUnacknowledged_iff (s : State) : s.someUnacknowledged = true ↔
    ∃ h, (s.monitor h).state = .halted ∨ (s.monitor h).state = .retract := by
  simp only [State.someUnacknowledged, PerHead.any_toList_iff, HeadState.unacknowledged_iff,
    State.monitor, or_comm]

theorem HeadState.holdsBoard_iff (st : HeadState) :
    st.holdsBoard = true ↔ st ≠ .idle ∧ st ≠ .waiting := by
  cases st <;> decide

/-- Some head keeps BOARD_END from closing the board (R44). -/
theorem State.someHoldsBoard_iff (s : State) : s.monitors.toList.any (·.state.holdsBoard) = true ↔
    ∃ h, (s.monitor h).state ≠ .idle ∧ (s.monitor h).state ≠ .waiting := by
  simp only [PerHead.any_toList_iff, HeadState.holdsBoard_iff, State.monitor]

/-! ### Refusals on the cell link (R172) -/

/-- A request of the cell link that is turned down: the reply is all that changes. -/
theorem next_turnDown {s : State} {a : State → Answer} (stamps : Stamps a) {kind tag : Byte}
    {payload : List Byte} {st : Status} (takes : s.takes .cell = true)
    (short : payload.length ≤ 250)
    (answer : a (s.withReply .cell kind tag st []) =
      (s.withReply .cell kind tag st []).turnDown st) :
    (Host.Outcome.next (s.request .cell kind tag payload a) : Outcome) =
      .next (s.withReply .cell kind tag st []) :=
  congrArg _ (State.request_turnDown stamps takes short answer)

/-! ### BOARD_BEGIN (R43) -/

theorem periodOf_eq_some_iff (code : Nat) (p : Period) :
    periodOf code = some p ↔ code = p.code := by
  constructor
  · intro hp
    unfold periodOf at hp
    split at hp <;> cases hp <;> rfl
  · rintro rfl
    cases p <;> rfl

theorem periodOf_eq_none {n : Nat} (hn : 3 < n) : periodOf n = none := by
  match n, hn with
  | n + 4, _ => rfl

/-- The state in which a board has been opened, field by field (R2, R43). -/
theorem State.openBoard_eq (s : State) (serial : BitVec 32) (bypass hold : Nat) (p : Period) :
    s.openBoard serial bypass hold p = { s with
      period := p
      fronts := if p = s.period then s.fronts else s.fronts.map FrontEnd.restartTare
      board :=
        { state := .isOpen, serial := serial, bypassLimit := min bypass 15, holdTime := max hold 1 }
      sites := Vector.replicate 96 none } := by
  unfold State.openBoard State.setPeriod
  split
  case isTrue same => rw [same]
  case isFalse => rfl

/-- Opening a board neither reads nor writes the cell link. -/
theorem State.openBoard_withReply (s : State) (kind tag : Byte) (st : Status) (bytes : List Byte)
    (serial : BitVec 32) (bypass hold : Nat) (p : Period) :
    (s.withReply .cell kind tag st bytes).openBoard serial bypass hold p =
      (s.openBoard serial bypass hold p).withReply .cell kind tag st bytes := by
  simp only [State.openBoard_eq, State.withReply_period, State.withReply_fronts]
  rfl

/-- The values in force once a board is open, as the reply carries them (R43). -/
theorem boardBytes_openBoard (s : State) (serial : BitVec 32) (bypass hold : Nat) (p : Period) :
    boardBytes (s.openBoard serial bypass hold p) =
      u32 serial.toNat ++ u8 (min bypass 15) ++ u8 (max hold 1) ++ u8 p.code := by
  rw [State.openBoard_eq]
  rfl

theorem boardBeginAnswer_badLength {payload : List Byte} (s : State) (len : payload.length ≠ 7) :
    boardBeginAnswer payload s = s.turnDown .badLength := if_pos len

theorem boardBeginAnswer_badValue {payload : List Byte} (s : State) (len : payload.length = 7)
    (bad : 3 < at8 payload 6) : boardBeginAnswer payload s = s.turnDown .badValue := by
  rw [boardBeginAnswer, if_neg (not_not.2 len), periodOf_eq_none bad]

/-- The fields of BOARD_BEGIN in their order (R43). -/
def boardPayload (serial : BitVec 32) (bypass hold code : Nat) : List Byte :=
  u32 serial.toNat ++ u8 bypass ++ u8 hold ++ u8 code

theorem length_boardPayload (serial : BitVec 32) (bypass hold code : Nat) :
    (boardPayload serial bypass hold code).length = 7 := rfl

/-- BOARD_BEGIN with fields in the width of their places and a period code (R43). -/
theorem boardBeginAnswer_boardPayload (s : State) (serial : BitVec 32) {bypass hold : Nat}
    (p : Period) (hb : bypass < 256) (hh : hold < 256) :
    boardBeginAnswer (boardPayload serial bypass hold p.code) s =
      if s.board.state ≠ .noBoard ∨ s.someUnacknowledged then s.turnDown .boardBusy
      else
        (s.openBoard serial bypass hold p).answer (takenStatus (decide (15 < bypass ∨ hold = 0)))
          (boardBytes (s.openBoard serial bypass hold p)) := by
  have code : periodOf (at8 (boardPayload serial bypass hold p.code) 6) = some p := by
    cases p <;> rfl
  have first : BitVec.ofNat 32 (at32 (boardPayload serial bypass hold p.code) 0) = serial :=
    (congrArg (BitVec.ofNat 32) (u32_read serial.isLt)).trans (by simp)
  have limit : at8 (boardPayload serial bypass hold p.code) 4 = bypass := u8_read hb
  have time : at8 (boardPayload serial bypass hold p.code) 5 = hold := u8_read hh
  rw [boardBeginAnswer, if_neg (not_not.2 (length_boardPayload ..)), code]
  simp only [first, limit, time]

/-- BOARD_BEGIN with no board and every head acknowledged: the board is opened and the values in force
are told (R43). -/
theorem exec_boardBegin_of_noBoard {s : State} (tag : Byte) (serial : BitVec 32) {bypass hold : Nat}
    (p : Period) (takes : s.takes .cell = true) (hb : bypass < 256) (hh : hold < 256)
    (closed : s.board.state = .noBoard) (acknowledged : s.someUnacknowledged = false) :
    exec (.boardBegin tag (boardPayload serial bypass hold p.code)) s =
      .next ((s.openBoard serial bypass hold p).withReply .cell 33 tag
        (takenStatus (decide (15 < bypass ∨ hold = 0)))
        (boardBytes (s.openBoard serial bypass hold p))) := by
  refine congrArg _ (State.request_of
    (st := takenStatus (decide (15 < bypass ∨ hold = 0)))
    (bytes := boardBytes (s.openBoard serial bypass hold p)) (boardBeginAnswer_stamps _) takes
    (by rw [length_boardPayload]; omega) ?_)
  rw [boardBeginAnswer_boardPayload _ serial p hb hh, State.withReply_board, State.withReply_cell,
    State.withCell_someUnacknowledged, if_neg (by simp [closed, acknowledged]),
    ← State.withReply_cell, State.openBoard_withReply]
  rfl

/-! ### BOARD_END (R44) -/

theorem State.withReply_cellLink (s : State) (kind tag : Byte) (st : Status) (bytes : List Byte) :
    (s.withReply .cell kind tag st bytes).cellLink = { s.cellLink with
      out := s.cellLink.out ++ [replyFrame kind tag { status := st, fields := bytes }] } := rfl

/-- The links of the heads whose claims are dropped: each is told of its own claim (R80). -/
theorem State.dropAll_link_of_mem (s : State) {r : ClaimReason} {es : List QueueEntry}
    (told : r ≠ .linkDown) (once : (es.map (·.head)).Nodup) {e : QueueEntry} (he : e ∈ es) :
    (s.dropAll none r es).link (.head e.head) =
      (s.link (.head e.head)).offer (eventFrame 65 (u8 e.claim.site.val ++ u8 r.code)) := by
  induction es generalizing s with
  | nil => simp at he
  | cons d es ih =>
    rw [List.map_cons, List.nodup_cons, List.mem_map, not_exists] at once
    obtain ⟨apart, others⟩ := once
    rw [State.dropAll_cons]
    rcases List.mem_cons.1 he with rfl | later
    · obtain ⟨silent, -⟩ | ⟨-, dropped⟩ := s.dropEntry_cases none r e
      · simp [told] at silent
      · rw [State.dropAll_link, dropped]
        · simp
        · rintro x hx same
          exact apart x ⟨hx, (Link.head.inj same).symm⟩
    · rw [ih _ others later, State.dropEntry_link]
      intro same
      exact apart e ⟨later, Link.head.inj same⟩

/-- The state BOARD_END leaves, but for its reply (R44). -/
def State.endBoard (s : State) : State := (s.dropAll none .boardClosed s.queue).closeBoard

theorem State.endBoard_monitor_of_waits {s : State} {e : QueueEntry} (he : e ∈ s.queue) :
    s.endBoard.monitor e.head = Monitor.idle :=
  (s.dropAll_monitor ..).trans (if_pos (List.any_eq_true.2 ⟨e, he, by simp⟩))

theorem State.endBoard_monitor_of_apart {s : State} {h : Head}
    (apart : ∀ e ∈ s.queue, e.head ≠ h) : s.endBoard.monitor h = s.monitor h :=
  (s.dropAll_monitor ..).trans (if_neg (by simpa using apart))

theorem State.endBoard_site (s : State) (n : Fin 96) : s.endBoard.site n = none :=
  Vector.getElem_replicate n.isLt

theorem State.endBoard_cellLink (s : State) : s.endBoard.cellLink = s.cellLink :=
  s.dropAll_cellLink ..

theorem State.endBoard_queue (s : State) : s.endBoard.queue = [] := s.dropAll_all_queue ..

/-- Ending a board neither reads nor writes the cell link. -/
theorem State.endBoard_withReply (s : State) (kind tag : Byte) (st : Status) (bytes : List Byte) :
    (s.withReply .cell kind tag st bytes).endBoard =
      s.endBoard.withReply .cell kind tag st bytes := by
  rw [State.withReply_cell, State.endBoard, State.withCell_queue, State.withCell_dropAll,
    State.withCell_closeBoard, State.withReply_cell s.endBoard]
  simp [State.withReply, State.setLink, State.link, State.endBoard]

theorem boardEndAnswer_badLength {payload : List Byte} (s : State) (some_bytes : payload ≠ []) :
    boardEndAnswer payload s = s.turnDown .badLength :=
  if_pos (mt List.eq_nil_of_length_eq_zero some_bytes)

/-- The dropped claims do not show in the summary (R44). -/
theorem boardEndAnswer_nil (s : State) :
    boardEndAnswer [] s =
      if s.board.state = .noBoard then s.turnDown .noBoard
      else if s.board.state = .aborting then s.turnDown .boardBusy
      else if s.monitors.toList.any (·.state.holdsBoard) then s.turnDown .boardBusy
      else s.endBoard.answer .ok (summaryBytes s) := by
  have summary : summaryBytes (s.dropAll none .boardClosed s.queue) = summaryBytes s := by
    simp only [summaryBytes, State.countSites, State.dropAll_board, State.dropAll_sites]
  simp only [boardEndAnswer, List.length_nil, ne_eq, not_true_eq_false, if_false, summary]
  rfl

/-- BOARD_END of an OPEN board that no head holds (R44). -/
theorem exec_boardEnd_of_open {s : State} (tag : Byte) (takes : s.takes .cell = true)
    (opened : s.board.state = .isOpen)
    (free : ∀ h, (s.monitor h).state = .idle ∨ (s.monitor h).state = .waiting) :
    exec (.boardEnd tag []) s =
      .next (s.endBoard.withReply .cell 34 tag .ok (summaryBytes s)) := by
  have none_holds : ¬ s.monitors.toList.any (·.state.holdsBoard) = true := by
    rw [State.someHoldsBoard_iff]
    rintro ⟨h, not_idle, not_waiting⟩
    exact (free h).elim not_idle not_waiting
  refine congrArg _ (State.request_of (st := .ok) (bytes := summaryBytes s)
    (boardEndAnswer_stamps _) takes (Nat.zero_le _) ?_)
  rw [boardEndAnswer_nil, State.endBoard_withReply, State.withReply_monitors, State.withReply_board,
    opened, if_neg (by decide), if_neg (by decide), if_neg none_holds]
  rfl

/-- The sites defined are those of the five states of the summary, where none is CLAIMED or PRESSING
(R44). -/
theorem countP_isSome_eq_summary {sites : List (Option SiteEntry)}
    (settled : ∀ e, some e ∈ sites → ∀ h g, e.state ≠ .claimed h g ∧ e.state ≠ .pressing h g) :
    sites.countP (·.isSome) =
      sites.countP (fun e => e.any (·.state == .empty))
        + sites.countP (fun e => e.any (·.state == .loaded))
        + sites.countP (fun e => e.any (·.state.isSeated))
        + sites.countP (fun e => e.any (·.state == .rejected))
        + sites.countP (fun e => e.any (·.state == .lockedOut)) := by
  induction sites with
  | nil => rfl
  | cons site sites ih =>
    have rest := ih fun e he => settled e (List.mem_cons_of_mem _ he)
    simp only [List.countP_cons]
    rw [rest]
    cases site with
    | none => rfl
    | some e =>
      have here := settled e List.mem_cons_self
      cases state : e.state with
      | claimed h g => exact absurd state (here h g).1
      | pressing h g => exact absurd state (here h g).2
      | empty | loaded | seated | rejected | lockedOut =>
        simp +arith [state, SiteState.isSeated]

/-- Under the law of sites a site is CLAIMED or PRESSING for an active head alone (R49). -/
theorem SiteLaw.settled_of_free {s : State} (law : SiteLaw s)
    (free : ∀ h, (s.monitor h).state = .idle ∨ (s.monitor h).state = .waiting) {e : SiteEntry}
    (he : some e ∈ s.sites.toList) (h : Head) (g : GrantFrom) :
    e.state ≠ .claimed h g ∧ e.state ≠ .pressing h g := by
  obtain ⟨i, hi, entry⟩ := Vector.mem_iff_getElem.1 (Vector.mem_toList_iff.1 he)
  have here : s.site ⟨i, hi⟩ = some e := entry
  constructor
  · intro claimed
    obtain ⟨state, -⟩ := (law.claimed _ h).1 ⟨e, g, here, claimed⟩
    rcases free h with st | st <;> simp [st] at state
  · intro pressing
    obtain ⟨state, -⟩ := (law.pressing _ h).1 ⟨e, g, here, pressing⟩
    rcases free h with st | st <;> simp [st, HeadState.inStroke] at state

/-- The summary with the defined sites counted as such (R44). -/
theorem summaryBytes_eq (s : State) : summaryBytes s =
    u32 s.board.serial.toNat
      ++ u8 (s.sites.toList.countP (·.isSome))
      ++ u8 (s.sites.toList.countP fun e => e.any (·.state == .empty))
      ++ u8 (s.sites.toList.countP fun e => e.any (·.state == .loaded))
      ++ u8 (s.sites.toList.countP fun e => e.any (·.state.isSeated))
      ++ u8 (s.sites.toList.countP fun e => e.any (·.state == .rejected))
      ++ u8 (s.sites.toList.countP fun e => e.any (·.state == .lockedOut)) := by
  have defined : (fun e : Option SiteEntry => e.any fun _ => true) = (·.isSome) := by
    funext e
    cases e <;> rfl
  rw [summaryBytes, State.countSites, defined]
  rfl

/-! ### Requests on a site of an OPEN board (R50 to R52) -/

section
variable {s : State}

theorem State.onOpenSite_noBoard (closed : s.board.state = .noBoard) (n : Nat)
    (f : Fin 96 → Answer) : s.onOpenSite n f = s.turnDown .noBoard := by
  rw [State.onOpenSite, closed]

theorem State.onOpenSite_aborting (aborting : s.board.state = .aborting) (n : Nat)
    (f : Fin 96 → Answer) : s.onOpenSite n f = s.turnDown .boardBusy := by
  rw [State.onOpenSite, aborting]

theorem State.onOpenSite_badSite (opened : s.board.state = .isOpen) {n : Nat} (bad : 95 < n)
    (f : Fin 96 → Answer) : s.onOpenSite n f = s.turnDown .badSite := by
  have unknown : siteOf n = none := dif_neg (by omega)
  rw [State.onOpenSite, opened, unknown]

theorem State.onOpenSite_of_open (opened : s.board.state = .isOpen) (site : Fin 96)
    (f : Fin 96 → Answer) : s.onOpenSite site.val f = f site := by
  have known : siteOf site.val = some site := dif_pos site.isLt
  rw [State.onOpenSite, opened, known]

end

/-- A site replaced after a reply, or before it: the same state. -/
theorem State.setSite_withReply (s : State) (kind tag : Byte) (st : Status) (bytes : List Byte)
    (site : Fin 96) (e : Option SiteEntry) :
    (s.withReply .cell kind tag st bytes).setSite site e =
      (s.setSite site e).withReply .cell kind tag st bytes := rfl

/-- A number sent as the byte it was read from. -/
theorem u8_toNat {k : Nat} {b : Byte} (hk : k = b.toNat) : u8 k = [b] := by
  simp [u8, hk]

/-! ### LOAD (R51) -/

theorem loadAnswer_badLength {payload : List Byte} (s : State) (len : payload.length ≠ 1) :
    loadAnswer payload s = s.turnDown .badLength := if_pos len

theorem loadAnswer_byte (n : Byte) (s : State) :
    loadAnswer [n] s = s.onOpenSite n.toNat s.loadSite := rfl

theorem State.loadSite_of_not_empty {s : State} {site : Fin 96}
    (full : ∀ e, s.site site = some e → e.state ≠ .empty) :
    s.loadSite site = s.turnDown .siteState := by
  unfold State.loadSite
  cases entry : s.site site with
  | none => rfl
  | some e => exact if_neg (full e entry)

theorem State.loadSite_of_empty {s : State} {site : Fin 96} {e : SiteEntry}
    (entry : s.site site = some e) (empty : e.state = .empty) :
    s.loadSite site = (s.setSite site (some { e with state := .loaded })).answer .ok
      (u8 site.val ++ u8 SiteState.loaded.code) := by
  simp only [State.loadSite, entry, empty, if_true]

/-- LOAD of an EMPTY site (R51). -/
theorem exec_load_of_empty {s : State} {n : Byte} {site : Fin 96} {e : SiteEntry} (tag : Byte)
    (takes : s.takes .cell = true) (opened : s.board.state = .isOpen) (number : site.val = n.toNat)
    (entry : s.site site = some e) (empty : e.state = .empty) :
    exec (.load tag [n]) s =
      .next ((s.setSite site (some { e with state := .loaded })).withReply .cell 37 tag .ok
        [n, 2]) := by
  refine congrArg _ (State.request_of (st := .ok) (bytes := [n, 2]) (loadAnswer_stamps _) takes
    (by simp) ?_)
  rw [loadAnswer_byte, ← number, State.onOpenSite_of_open (by simpa using opened),
    State.loadSite_of_empty (by simpa using entry) empty, u8_toNat number, State.setSite_withReply]
  rfl

/-! ### The zones of SITE_DEFINE (R48, R50) -/

theorem zoneOf_val (z : Fin 32) : zoneOf z.val = some z := dif_pos z.isLt

theorem zonesOf_map_val (zs : List (Fin 32)) : zonesOf (zs.map (·.val)) = some zs := by
  induction zs with
  | nil => rfl
  | cons z zs ih => rw [List.map_cons, zonesOf, zoneOf_val, ih]

/-- Zone numbers of the part, as the zones they name. -/
theorem exists_zones {ns : List Nat} (zones : ∀ n ∈ ns, n ≤ 31) :
    ∃ zs : List (Fin 32), ns = zs.map (·.val) := by
  induction ns with
  | nil => exact ⟨[], rfl⟩
  | cons n ns ih =>
    rw [List.forall_mem_cons] at zones
    obtain ⟨first, others⟩ := zones
    obtain ⟨zs, rfl⟩ := ih others
    exact ⟨⟨n, by omega⟩ :: zs, rfl⟩

theorem zonesOf_eq_none {ns : List Nat} {n : Nat} (hn : n ∈ ns) (bad : 31 < n) :
    zonesOf ns = none := by
  induction ns with
  | nil => simp at hn
  | cons m ns ih =>
    unfold zonesOf
    rcases List.mem_cons.1 hn with rfl | later
    · have unknown : zoneOf n = none := dif_neg (by omega)
      rw [unknown]
    · rw [ih later]
      cases zoneOf m <;> rfl

theorem distinct_iff (ns : List Nat) : distinct ns = true ↔ ns.Nodup := by
  induction ns with
  | nil => simp [distinct]
  | cons n ns ih => simp [distinct, ih]

theorem insertZone_perm (z : Fin 32) (zs : List (Fin 32)) : (insertZone z zs).Perm (z :: zs) := by
  induction zs with
  | nil => exact .refl _
  | cons y ys ih =>
    unfold insertZone
    split
    · exact .refl _
    · exact (ih.cons y).trans (.swap z y ys)

/-- Putting a keep-out set in rising order neither adds nor drops a zone (R48, log 21). -/
theorem keepOutOf_perm (zs : List (Fin 32)) : (keepOutOf zs).Perm zs := by
  induction zs with
  | nil => exact .refl _
  | cons z zs ih => exact (insertZone_perm z _).trans (ih.cons z)

/-! ### SITE_DEFINE (R50) -/

theorem siteDefineAnswer_short {payload : List Byte} (s : State) (len : payload.length < 7) :
    siteDefineAnswer payload s = s.turnDown .badLength := if_pos len

theorem siteDefineAnswer_badCount {payload : List Byte} (s : State) (len : 7 ≤ payload.length)
    (count : at8 payload 6 = 0 ∨ 6 < at8 payload 6) :
    siteDefineAnswer payload s = s.turnDown .badValue := by
  rw [siteDefineAnswer, if_neg (by omega), if_pos (by omega)]

theorem siteDefineAnswer_badLength {payload : List Byte} (s : State) (len : 7 ≤ payload.length)
    (one : 1 ≤ at8 payload 6) (six : at8 payload 6 ≤ 6)
    (wrong : payload.length ≠ 7 + at8 payload 6) :
    siteDefineAnswer payload s = s.turnDown .badLength := by
  rw [siteDefineAnswer, if_neg (by omega), if_neg (by omega), if_pos wrong]

/-- The fields of SITE_DEFINE in their order (R50). -/
def sitePayload (n t : Byte) (x y : Nat) (zs : List Byte) : List Byte :=
  [n, t] ++ u16 x ++ u16 y ++ u8 zs.length ++ zs

section
variable (n t : Byte) (x y : Nat) (zs : List Byte)

theorem length_sitePayload : (sitePayload n t x y zs).length = 7 + zs.length := by
  simp [sitePayload, u16, u8]
  omega

theorem zoneNumbers_sitePayload : zoneNumbers (sitePayload n t x y zs) = zs.map (·.toNat) := rfl

/-- SITE_DEFINE of one to six zones passes its checks of length and count (R50). -/
theorem siteDefineAnswer_sitePayload {zs : List Byte} (one : 1 ≤ zs.length) (six : zs.length ≤ 6)
    (s : State) : siteDefineAnswer (sitePayload n t x y zs) s =
      s.onOpenSite n.toNat (s.defineSite (sitePayload n t x y zs)) := by
  have count : at8 (sitePayload n t x y zs) 6 = zs.length := u8_read (by omega)
  rw [siteDefineAnswer, count, length_sitePayload, if_neg (by omega), if_neg (by omega),
    if_neg (by omega)]
  rfl

/-- The values of SITE_DEFINE that its checks 6 and 7 let pass (R50). -/
def SiteValues (t : Byte) (zs : List Byte) : Prop :=
  t.toNat ≤ 47 ∧ (∀ z ∈ zs, z.toNat ≤ 31) ∧ zs.Nodup

theorem distinct_map_toNat : distinct (zs.map (·.toNat)) = true ↔ zs.Nodup := by
  rw [distinct_iff, List.nodup_map_iff fun a b => BitVec.eq_of_toNat_eq]

theorem State.defineSite_badValue {t : Byte} {zs : List Byte} (bad : ¬ SiteValues t zs) (s : State)
    (site : Fin 96) : s.defineSite (sitePayload n t x y zs) site = s.turnDown .badValue := by
  have number : at8 (sitePayload n t x y zs) 1 = t.toNat := rfl
  rw [State.defineSite, zoneNumbers_sitePayload, number]
  by_cases known : t.toNat ≤ 47
  · by_cases zones : ∀ z ∈ zs, z.toNat ≤ 31
    · have repeated : distinct (zs.map (·.toNat)) = false := by
        rw [Bool.eq_false_iff, ne_eq, distinct_map_toNat]
        exact fun once => bad ⟨known, zones, once⟩
      rw [repeated]
      split <;> rfl
    · push Not at zones
      obtain ⟨z, hz, far⟩ := zones
      rw [zonesOf_eq_none (List.mem_map_of_mem hz) far]
      cases typeOf t.toNat <;> rfl
  · have unknown : typeOf t.toNat = none := dif_neg (by omega)
    rw [unknown]

end

section
variable {zs : List Byte} {zones : List (Fin 32)}

theorem distinct_of_listed (listed : zs.map (·.toNat) = zones.map (·.val)) (once : zs.Nodup) :
    distinct (zones.map (·.val)) = true := by
  rw [← listed]
  exact (distinct_map_toNat zs).2 once

/-- The zones named once are as many different zones (R50). -/
theorem nodup_of_listed (listed : zs.map (·.toNat) = zones.map (·.val)) (once : zs.Nodup) :
    zones.Nodup :=
  ((distinct_iff _).1 (distinct_of_listed listed once)).of_map _

theorem mem_iff_of_listed (listed : zs.map (·.toNat) = zones.map (·.val)) (z : Fin 32) :
    z ∈ zones ↔ ∃ b ∈ zs, b.toNat = z.val := by
  rw [← List.mem_map, listed, List.mem_map_of_injective Fin.val_injective]

end

theorem State.definable_iff (s : State) (site : Fin 96) :
    s.definable site = true ↔ ∀ e, s.site site = some e → e.state = .empty := by
  unfold State.definable
  cases s.site site <;> simp

theorem State.definable_withReply (s : State) (kind tag : Byte) (st : Status) (bytes : List Byte)
    (site : Fin 96) : (s.withReply .cell kind tag st bytes).definable site = s.definable site := rfl

section
variable {s : State} {n t : Byte} {x y : Nat} {zs : List Byte} {site : Fin 96} {ty : Fin 48}
  {zones : List (Fin 32)} (hx : x < 65536) (hy : y < 65536) (one : 1 ≤ zs.length)
  (six : zs.length ≤ 6) (number : site.val = n.toNat) (type : ty.val = t.toNat)
  (listed : zs.map (·.toNat) = zones.map (·.val)) (once : zs.Nodup)
include hx hy one six number type listed once

/-- SITE_DEFINE on an OPEN board, its values in range: the type and the state of the site decide
(R50). -/
theorem siteDefineAnswer_of_values (opened : s.board.state = .isOpen) :
    siteDefineAnswer (sitePayload n t x y zs) s =
      if (s.typeSlot ty).state = .absent then s.turnDown .typeAbsent
      else if s.definable site = false then s.turnDown .siteState
      else (s.setSite site (some (definedSite ty x y zones))).answer .ok
        (u8 site.val ++ u8 SiteState.empty.code ++ u8 (s.typeSlot ty).state.code) := by
  have type_no : typeOf (at8 (sitePayload n t x y zs) 1) = some ty := by
    rw [show at8 (sitePayload n t x y zs) 1 = ty.val from type.symm, typeOf_val]
  have column : at16 (sitePayload n t x y zs) 2 = x := u16_read hx
  have row : at16 (sitePayload n t x y zs) 4 = y := u16_read hy
  rw [siteDefineAnswer_sitePayload n t x y one six, ← number, State.onOpenSite_of_open opened,
    State.defineSite, zoneNumbers_sitePayload, type_no, listed, zonesOf_map_val,
    distinct_of_listed listed once, column, row]
  rfl

/-- SITE_DEFINE of a definable site, with a type that is there (R50). -/
theorem exec_siteDefine_of_definable (tag : Byte) (takes : s.takes .cell = true)
    (opened : s.board.state = .isOpen) (present : (s.typeSlot ty).state ≠ .absent)
    (definable : s.definable site = true) :
    exec (.siteDefine tag (sitePayload n t x y zs)) s =
      .next ((s.setSite site (some (definedSite ty x y zones))).withReply .cell 36 tag .ok
        ([n, 1] ++ u8 (s.typeSlot ty).state.code)) := by
  refine congrArg _ (State.request_of (st := .ok)
    (bytes := [n, 1] ++ u8 (s.typeSlot ty).state.code) (siteDefineAnswer_stamps _) takes
    (by rw [length_sitePayload]; omega) ?_)
  rw [siteDefineAnswer_of_values hx hy one six number type listed once (by simpa using opened),
    State.withReply_typeSlot, if_neg present, State.definable_withReply,
    if_neg (by simp [definable]), u8_toNat number, State.setSite_withReply]
  rfl

end

/-! ### The statements -/

/-- Settles O20: the answer of BOARD_BEGIN in its cases, and the state in which the board is open. -/
theorem boardBeginOpensABoard : Obligations.BoardBeginOpensABoard := by
  intro tag s takes
  have refused {payload : List Byte} {st : Status} := next_turnDown (kind := 33) (tag := tag)
    (st := st) (boardBeginAnswer_stamps payload) takes (payload := payload)
  refine ⟨fun payload len hp => ?_, fun payload len bad => ?_,
    fun serial bypass hold code p hb hh hcode => ?_⟩
  · exact refused hp (boardBeginAnswer_badLength _ len)
  · exact refused (by omega) (boardBeginAnswer_badValue _ len bad)
  · obtain rfl : code = p.code := (periodOf_eq_some_iff _ _).1 hcode
    refine ⟨fun busy => ?_, fun closed acknowledged => ?_⟩
    · refine refused (payload := boardPayload serial bypass hold p.code)
        (by rw [length_boardPayload]; omega) ?_
      rw [← State.someUnacknowledged_iff] at busy
      refine (boardBeginAnswer_boardPayload _ serial p hb hh).trans ?_
      rw [State.withReply_board, State.withReply_cell, State.withCell_someUnacknowledged,
        if_pos busy]
    · have none_left : s.someUnacknowledged = false := by
        rw [Bool.eq_false_iff, ne_eq, State.someUnacknowledged_iff]
        rintro ⟨h, halted | retract⟩
        · exact (acknowledged h).1 halted
        · exact (acknowledged h).2 retract
      have taken := exec_boardBegin_of_noBoard tag serial p takes hb hh closed none_left
      rw [boardBytes_openBoard, State.openBoard_eq, takenStatus_of_iff decide_eq_true_iff] at taken
      exact taken

/-- Settles O21: the refusals of BOARD_END in their order; the state it leaves read off the drop of
the whole queue; and the summary, in which a CLAIMED or PRESSING site would need an active head. -/
theorem boardEndClosesTheBoard : Obligations.BoardEndClosesTheBoard := by
  intro tag s takes
  have refused {payload : List Byte} {st : Status} := next_turnDown (kind := 34) (tag := tag)
    (st := st) (boardEndAnswer_stamps payload) takes (payload := payload)
  refine ⟨fun payload some_bytes hp => ?_, fun closed => ?_, fun aborting => ?_,
    fun opened held => ?_, fun opened once free => ?_⟩
  · exact refused hp (boardEndAnswer_badLength _ some_bytes)
  · refine refused (Nat.zero_le _) ?_
    simp [boardEndAnswer_nil, closed]
  · refine refused (Nat.zero_le _) ?_
    simp [boardEndAnswer_nil, aborting]
  · refine refused (Nat.zero_le _) ?_
    rw [← State.someHoldsBoard_iff] at held
    simp [boardEndAnswer_nil, opened, held]
  · refine ⟨_, exec_boardEnd_of_open tag takes opened free, s.endBoard_queue, s.endBoard_site, rfl,
      fun e he => ⟨?_, ?_⟩, fun h apart => ⟨?_, ?_⟩, ?_, ?_, ?_, ?_, ?_, ?_, ?_, ?_, ?_,
      fun law => countP_isSome_eq_summary fun e he => law.settled_of_free free he⟩
    · exact (State.withReply_monitor ..).trans (State.endBoard_monitor_of_waits he)
    · exact s.dropAll_link_of_mem (by decide) once he
    · exact (State.withReply_monitor ..).trans (State.endBoard_monitor_of_apart apart)
    · exact s.dropAll_link none .boardClosed s.queue _ fun e he same =>
        apart e he (Link.head.inj same).symm
    · rw [← summaryBytes_eq, State.withReply_cellLink, State.endBoard_cellLink,
        State.withReply_cellLink]
    all_goals simp [State.endBoard]

/-- Settles O23: the checks of SITE_DEFINE in their order, and the zones of the payload as the keep-out
set. -/
theorem siteDefineMakesTheSiteEmpty : Obligations.SiteDefineMakesTheSiteEmpty := by
  intro tag s takes
  have refused {payload : List Byte} {st : Status} := next_turnDown (kind := 36) (tag := tag)
    (st := st) (siteDefineAnswer_stamps payload) takes (payload := payload)
  refine ⟨fun payload len => ?_, fun payload len hp count => ?_,
    fun payload len hp one six wrong => ?_, fun n t x y zs hx hy one six => ?_⟩
  · exact refused (by omega) (siteDefineAnswer_short _ len)
  · exact refused hp (siteDefineAnswer_badCount _ len count)
  · exact refused hp (siteDefineAnswer_badLength _ len one six wrong)
  · have short : (sitePayload n t x y zs).length ≤ 250 := by rw [length_sitePayload]; omega
    have on_site := siteDefineAnswer_sitePayload n t x y one six
    refine ⟨fun closed => ?_, fun aborting => ?_, fun opened bad => ?_,
      fun opened known invalid => ?_, fun site ty opened number type valid => ?_⟩
    · exact refused short ((on_site _).trans (State.onOpenSite_noBoard (by simpa using closed) ..))
    · exact refused short ((on_site _).trans
        (State.onOpenSite_aborting (by simpa using aborting) ..))
    · exact refused short ((on_site _).trans
        (State.onOpenSite_badSite (by simpa using opened) bad _))
    · refine refused short ((on_site _).trans ?_)
      rw [State.onOpenSite_of_open (by simpa using opened) ⟨n.toNat, by omega⟩]
      exact State.defineSite_badValue n x y invalid _ _
    · obtain ⟨-, in_range, once⟩ := valid
      obtain ⟨zones, listed⟩ := exists_zones (ns := zs.map (·.toNat)) (by simpa using in_range)
      have checked {r : State} := siteDefineAnswer_of_values (s := r) hx hy one six number type
        listed once
      refine ⟨fun absent => refused short ?_, fun e present entry full => refused short ?_,
        fun present definable => ⟨keepOutOf zones, ?_, fun z => ?_, ?_⟩⟩
      · refine (checked (by simpa using opened)).trans ?_
        rw [State.withReply_typeSlot, if_pos absent]
      · have taken : s.definable site = false := by
          rw [Bool.eq_false_iff, ne_eq, State.definable_iff]
          exact fun empty => full (empty e entry)
        refine (checked (by simpa using opened)).trans ?_
        rw [State.withReply_typeSlot, if_neg present, State.definable_withReply, if_pos taken]
      · rw [(keepOutOf_perm zones).nodup_iff]
        exact nodup_of_listed listed once
      · rw [(keepOutOf_perm zones).mem_iff]
        exact mem_iff_of_listed listed z
      · exact exec_siteDefine_of_definable hx hy one six number type listed once tag takes opened
          present ((s.definable_iff site).2 definable)

/-- Settles O24: the answer of LOAD in its cases. -/
theorem loadMakesTheSiteLoaded : Obligations.LoadMakesTheSiteLoaded := by
  intro tag s takes
  have refused {payload : List Byte} {st : Status} := next_turnDown (kind := 37) (tag := tag)
    (st := st) (loadAnswer_stamps payload) takes (payload := payload)
  have byte_short (n : Byte) : [n].length ≤ 250 := by simp
  refine ⟨fun payload len hp => refused hp (loadAnswer_badLength _ len),
    fun n => ⟨fun closed => ?_, fun aborting => ?_, fun opened bad => ?_,
      fun site opened number => ⟨fun full => ?_, fun e entry empty => ⟨?_, fun sound => ?_⟩⟩⟩⟩
  · exact refused (byte_short n) (State.onOpenSite_noBoard (by simpa using closed) ..)
  · exact refused (byte_short n) (State.onOpenSite_aborting (by simpa using aborting) ..)
  · exact refused (byte_short n) (State.onOpenSite_badSite (by simpa using opened) bad _)
  · refine refused (byte_short n) ?_
    rw [loadAnswer_byte, ← number, State.onOpenSite_of_open (by simpa using opened)]
    exact State.loadSite_of_not_empty (by simpa using full)
  · exact exec_load_of_empty tag takes opened number entry empty
  · exact (sound site e entry).fresh (.inl empty)

/-- Settles O26: the row of each outcome, for a site that is PRESSING and for any other. -/
theorem outcomesAreApplied : Obligations.OutcomesAreApplied := by
  refine ⟨fun e h g pressing => ⟨fun d => ?_, fun f => ?_, fun cause contact counted => ?_,
    fun cause other => ?_⟩, fun e o => e.apply_of_not_pressing o⟩
  · exact SiteEntry.apply_pass pressing d
  · exact SiteEntry.apply_reject pressing f
  · rw [SiteEntry.apply_abort pressing, if_pos ((countedAbort_iff cause contact).2 counted)]
    rfl
  · have uncounted : ¬ countedAbort cause false = true := by simp [countedAbort_iff, other]
    rw [SiteEntry.apply_abort pressing, if_neg uncounted]
    cases g <;> rfl

end Sys2Proof.Machine

end

section
/-! Flex zones and claims (section 4): CLAIM and its refusals. -/

namespace Sys2Proof.Machine

/-! ### The requirement on the site (R55) -/

theorem SiteEntry.restrikeEligible_iff (e : SiteEntry) : e.restrikeEligible = true ↔
    e.state = .rejected ∧ e.last = some (.abort .depthLimit) ∧ e.attempts < 3 := by
  simp [SiteEntry.restrikeEligible, and_assoc]

/-- A site meets a claim where it is LOADED or, for a restrike, restrike-eligible (R55). -/
theorem State.meets_iff (s : State) (c : Claim) : s.meets c = true ↔
    ∃ e, s.site c.site = some e ∧
      (c.restrike = false ∧ e.state = .loaded ∨
        c.restrike = true ∧ e.state = .rejected ∧ e.last = some (.abort .depthLimit) ∧
          e.attempts < 3) := by
  unfold State.meets
  cases s.site c.site with
  | none => simp
  | some e => cases c.restrike <;> simp [SiteEntry.restrikeEligible_iff]

theorem State.typeStateAt_of_site {s : State} {n : Fin 96} {e : SiteEntry}
    (entry : s.site n = some e) : s.typeStateAt n = some (s.typeSlot e.typeNo).state := by
  simp [State.typeStateAt, State.typeAt, entry]

@[simp] theorem State.withReply_meets (s : State) (l : Link) (kind tag : Byte) (st : Status)
    (bytes : List Byte) (c : Claim) : (s.withReply l kind tag st bytes).meets c = s.meets c := by
  simp [State.meets]

@[simp] theorem State.withReply_typeStateAt (s : State) (l : Link) (kind tag : Byte) (st : Status)
    (bytes : List Byte) (n : Fin 96) :
    (s.withReply l kind tag st bytes).typeStateAt n = s.typeStateAt n := by
  simp [State.typeStateAt, State.typeAt]

/-! ### The checks of CLAIM (R66) -/

/-- The claim that CLAIM makes with a site and a byte for the kind (R66). -/
def claimOn (site : Fin 96) (r : Byte) : Claim := { site := site, restrike := r.toNat == 1 }

@[simp] theorem claimOn_site (site : Fin 96) (r : Byte) : (claimOn site r).site = site := rfl

theorem State.meets_claimOn_iff (s : State) (site : Fin 96) {r : Byte} (kind : r.toNat ≤ 1) :
    s.meets (claimOn site r) = true ↔ ∃ e, s.site site = some e ∧
      (r.toNat = 0 ∧ e.state = .loaded ∨
        r.toNat = 1 ∧ e.state = .rejected ∧ e.last = some (.abort .depthLimit) ∧
          e.attempts < 3) := by
  have loaded_kind : (claimOn site r).restrike = false ↔ r.toNat = 0 := by
    simp only [claimOn, beq_eq_false_iff_ne]
    omega
  have restrike_kind : (claimOn site r).restrike = true ↔ r.toNat = 1 := beq_iff_eq
  rw [State.meets_iff, loaded_kind, restrike_kind]
  rfl

section
variable {s : State} {h : Head}

theorem claimAnswer_badLength {payload : List Byte} (len : payload.length ≠ 3) :
    claimAnswer h payload s = s.turnDown .badLength := if_pos len

theorem claimAnswer_badValue {n w r : Byte} (bad : 1 < w.toNat ∨ 1 < r.toNat) :
    claimAnswer h [n, w, r] s = s.turnDown .badValue :=
  (if_neg (not_not.2 rfl)).trans (if_pos bad)

/-- CLAIM with flags of 0 or 1, past its checks of length and value (R66). -/
theorem claimAnswer_flags (n : Byte) {w r : Byte} (wait : w.toNat ≤ 1) (kind : r.toNat ≤ 1) :
    claimAnswer h [n, w, r] s =
      if s.board.state = .noBoard then s.turnDown .noBoard
      else if s.board.state = .aborting then s.turnDown .boardBusy
      else if s.estop then s.turnDown .estopActive
      else if (s.monitor h).state ≠ .idle then s.turnDown .headState
      else
        match siteOf n.toNat with
        | none => s.turnDown .badSite
        | some site => s.claimSite h (w.toNat == 1) (claimOn site r) :=
  (if_neg (not_not.2 rfl)).trans
    (if_neg (show ¬ (1 < w.toNat ∨ 1 < r.toNat) by omega))

theorem State.claimSite_siteState {c : Claim} (wait : Bool) (unmet : s.meets c = false) :
    s.claimSite h wait c = s.turnDown .siteState := if_pos unmet

theorem State.claimSite_typeBroken {c : Claim} (wait : Bool) (met : s.meets c = true)
    (broken : s.typeStateAt c.site = some .broken) :
    s.claimSite h wait c = s.turnDown .typeBroken := by
  rw [State.claimSite, if_neg (by simp [met]), if_pos broken]

section
variable (n : Byte) {w r : Byte} (wait : w.toNat ≤ 1) (kind : r.toNat ≤ 1)
include wait kind

theorem claimAnswer_noBoard (closed : s.board.state = .noBoard) :
    claimAnswer h [n, w, r] s = s.turnDown .noBoard := by
  rw [claimAnswer_flags n wait kind, if_pos closed]

theorem claimAnswer_aborting (aborting : s.board.state = .aborting) :
    claimAnswer h [n, w, r] s = s.turnDown .boardBusy := by
  simp [claimAnswer_flags n wait kind, aborting]

theorem claimAnswer_estop (opened : s.board.state = .isOpen) (stopped : s.estop = true) :
    claimAnswer h [n, w, r] s = s.turnDown .estopActive := by
  simp [claimAnswer_flags n wait kind, opened, stopped]

section
variable (opened : s.board.state = .isOpen) (safe : s.estop = false)
include opened safe

theorem claimAnswer_headState (busy : (s.monitor h).state ≠ .idle) :
    claimAnswer h [n, w, r] s = s.turnDown .headState := by
  simp [claimAnswer_flags n wait kind, opened, safe, busy]

theorem claimAnswer_badSite (idle : (s.monitor h).state = .idle) (far : 95 < n.toNat) :
    claimAnswer h [n, w, r] s = s.turnDown .badSite := by
  have unknown : siteOf n.toNat = none := dif_neg (by omega)
  simp [claimAnswer_flags n wait kind, opened, safe, idle, unknown]

/-- CLAIM of an IDLE head on a site of an OPEN board: the checks left are those of the site and of
its type (R66, checks 7 and 8). -/
theorem claimAnswer_of_site (idle : (s.monitor h).state = .idle) {site : Fin 96}
    (number : site.val = n.toNat) :
    claimAnswer h [n, w, r] s = s.claimSite h (w.toNat == 1) (claimOn site r) := by
  have known : siteOf n.toNat = some site := by
    rw [← number]
    exact dif_pos site.isLt
  simp [claimAnswer_flags n wait kind, opened, safe, idle, known]

end

end

/-- A refused CLAIM: the reply is all that changes (R66). -/
theorem exec_claim_turnDown {payload : List Byte} {st : Status} {tag : Byte}
    (takes : s.takes (.head h) = true) (short : payload.length ≤ 250)
    (refused : claimAnswer h payload (s.withReply (.head h) 17 tag st []) =
      (s.withReply (.head h) 17 tag st []).turnDown st) :
    exec (.claim h tag payload) s = .next (s.withReply (.head h) 17 tag st []) :=
  congrArg _ (State.request_turnDown (claimAnswer_stamps h payload) takes short refused)

end

/-! ### The statements -/

/-- Settles O27: the checks of CLAIM in their order, each where those before it pass. -/
theorem claimRefusals : Obligations.ClaimRefusals := by
  intro h tag s takes
  refine ⟨fun payload len short => exec_claim_turnDown takes short (claimAnswer_badLength len),
    fun n w r bad => exec_claim_turnDown takes (by simp) (claimAnswer_badValue bad),
    fun n w r wait kind => ?_⟩
  have refused {st : Status} := exec_claim_turnDown (h := h) (payload := [n, w, r]) (st := st)
    (tag := tag) takes (by simp)
  refine ⟨fun closed => ?_, fun aborting => ?_, fun opened stopped => ?_,
    fun opened safe busy => ?_, fun opened safe idle => ⟨fun far => ?_, fun site number =>
      ⟨fun unmet => ?_, fun e entry met broken => ?_⟩⟩⟩
  · exact refused (claimAnswer_noBoard n wait kind (by simpa using closed))
  · exact refused (claimAnswer_aborting n wait kind (by simpa using aborting))
  · exact refused (claimAnswer_estop n wait kind (by simpa using opened) (by simpa using stopped))
  · exact refused (claimAnswer_headState n wait kind (by simpa using opened) (by simpa using safe)
      (by simpa using busy))
  · exact refused (claimAnswer_badSite n wait kind (by simpa using opened) (by simpa using safe)
      (by simpa using idle) far)
  all_goals
    refine refused ((claimAnswer_of_site n wait kind (by simpa using opened) (by simpa using safe)
      (by simpa using idle) number).trans ?_)
  · rw [← State.meets_claimOn_iff s site kind, Bool.not_eq_true] at unmet
    exact State.claimSite_siteState _ (by simpa using unmet)
  · have meets := (State.meets_claimOn_iff s site kind).2 ⟨e, entry, met⟩
    have type_broken : s.typeStateAt site = some .broken := by
      rw [State.typeStateAt_of_site entry, broken]
    exact State.claimSite_typeBroken _ (by simpa using meets) (by simpa using type_broken)

end Sys2Proof.Machine

end

section
/-! The press stroke (section 5): HOME, an accepted START, and the verdict. -/

namespace Sys2Proof.Machine

/-! ### Sites -/

theorem State.changeSite_of_site {s : State} {n : Fin 96} {e : SiteEntry}
    (entry : s.site n = some e) (f : SiteEntry → SiteEntry) :
    s.changeSite n f = s.setSite n (some (f e)) := by
  rw [State.changeSite, entry]
  rfl

theorem SiteEntry.press_of_claimed {e : SiteEntry} {h : Head} {g : GrantFrom}
    (claimed : e.state = .claimed h g) : e.press = { e with state := .pressing h g } := by
  rw [SiteEntry.press, claimed]

@[simp] theorem State.releaseUser_site (s : State) (t : Fin 48) (n : Fin 96) :
    (s.releaseUser t).state.site n = s.site n := by
  simp [State.site]

/-! ### HOME (R12, R103) -/

theorem homeAnswer_badLength {payload : List Byte} (h : Head) (s : State)
    (some_bytes : payload ≠ []) : homeAnswer h payload s = s.turnDown .badLength :=
  if_pos (mt List.eq_nil_of_length_eq_zero some_bytes)

/-- HOME without a payload is decided by the head state alone (R103). -/
theorem homeAnswer_nil (h : Head) (s : State) :
    homeAnswer h [] s =
      if (s.monitor h).state = .idle ∨ (s.monitor h).state = .waiting then
        (s.setFront h (s.front h).home).answer .ok [0, 0, 0, 0]
      else s.turnDown .headState := rfl

theorem exec_home_turnDown {s : State} {h : Head} {tag : Byte} {payload : List Byte} {st : Status}
    (takes : s.takes (.head h) = true) (short : payload.length ≤ 250)
    (refused : homeAnswer h payload (s.withReply (.head h) 16 tag st []) =
      (s.withReply (.head h) 16 tag st []).turnDown st) :
    exec (.home h tag payload) s = .next (s.withReply (.head h) 16 tag st []) :=
  congrArg _ (State.request_turnDown (homeAnswer_stamps h payload) takes short refused)

/-- HOME of a head that takes it: the front end homed, and the position 0 told (R103). -/
theorem exec_home_of_free {s : State} {h : Head} (tag : Byte) (takes : s.takes (.head h) = true)
    (free : (s.monitor h).state = .idle ∨ (s.monitor h).state = .waiting) :
    exec (.home h tag []) s =
      .next ((s.setFront h (s.front h).home).withReply (.head h) 16 tag .ok [0, 0, 0, 0]) := by
  refine congrArg _ (State.request_of (st := .ok) (bytes := [0, 0, 0, 0]) (homeAnswer_stamps h [])
    takes (Nat.zero_le _) ?_)
  rw [homeAnswer_nil, State.withReply_monitor, if_pos free, State.withReply_front]
  rfl

/-! ### Times in samples (R1) -/

theorem Period.micros_pos (p : Period) : 0 < p.micros := by
  cases p <;> decide

/-- A time in samples is the least number of samples that lasts it. -/
theorem samplesOf_least (p : Period) (ms : Nat) :
    ms * 1000 ≤ samplesOf p ms * p.micros ∧ samplesOf p ms * p.micros < ms * 1000 + p.micros := by
  have positive := p.micros_pos
  have parts := Nat.div_add_mod' (ms * 1000 + (p.micros - 1)) p.micros
  have rest := Nat.mod_lt (ms * 1000 + (p.micros - 1)) positive
  unfold samplesOf
  omega

/-! ### An accepted START (R90, R91) -/

section
variable {s : State} {h : Head} {c : Claim} {w : WorkingCopy} {e : SiteEntry}

theorem startAnswer_nil_of_armed (armed : (s.monitor h).state = .armed) :
    startAnswer h [] s = s.startArmed h := by
  simp [startAnswer, armed]

/-- Checks 3 to 5 of R90 passed: START is accepted. -/
theorem State.startArmed_of_ready (claim : (s.monitor h).claim = some c)
    (copy : (s.monitor h).copy = some w) (homed : (s.front h).homed = true)
    (counting : (s.front h).encoderFault = false) (stable : (s.front h).tare.state = .stable)
    (light : 2 * (s.front h).latest.net < w.fields.contactThreshold) :
    s.startArmed h = s.acceptStart h c w := by
  have unloaded : forcePresent (s.front h) w.fields = false := by
    simpa [forcePresent] using light
  simp [State.startArmed, claim, copy, homed, counting, stable, unloaded]

/-- The stroke variables with which a head starts on a site of entry `e` (R91). -/
def State.beginStroke (s : State) (h : Head) (w : WorkingCopy) (e : SiteEntry) : Stroke :=
  Stroke.begin w.fields s.period s.board.serial e.attempts (s.front h)

/-- The state in which a stroke has been started, part by part (R91). -/
theorem State.startStroke_of_site (site : s.site c.site = some e) :
    s.startStroke h c w = ((s.setSite c.site (some e.press)).setFront h
      { s.front h with heldCount := 0 }).setMonitor h
        { s.monitor h with
          state := .approach, permit := true, grantTime := none
          stroke := some (s.beginStroke h w e) } := by
  rw [State.startStroke, State.changeSite_of_site site, site]
  rfl

theorem State.acceptStart_of_site (site : s.site c.site = some e) :
    s.acceptStart h c w =
      { state := s.startStroke h c w, reply := startReply c (s.beginStroke h w e) } := by
  have begun : ((s.startStroke h c w).monitor h).stroke = some (s.beginStroke h w e) := by
    rw [State.startStroke_of_site site]
    simp
  rw [State.acceptStart, begun]

/-- Starting a stroke neither reads nor writes the links. -/
theorem State.startStroke_withReply (l : Link) (kind tag : Byte) (st : Status)
    (bytes : List Byte) : (s.withReply l kind tag st bytes).startStroke h c w =
      (s.startStroke h c w).withReply l kind tag st bytes := by
  cases l <;> rfl

/-- START of an armed head that passes the checks of R90: its stroke is started, and told with the
limit counts (R91). -/
theorem exec_start_of_ready (tag : Byte) (takes : s.takes (.head h) = true)
    (armed : (s.monitor h).state = .armed) (claim : (s.monitor h).claim = some c)
    (copy : (s.monitor h).copy = some w) (homed : (s.front h).homed = true)
    (counting : (s.front h).encoderFault = false) (stable : (s.front h).tare.state = .stable)
    (light : 2 * (s.front h).latest.net < w.fields.contactThreshold)
    (site : s.site c.site = some e) :
    exec (.start h tag []) s = .next ((s.startStroke h c w).withReply (.head h) 19 tag .ok
      (startReply c (s.beginStroke h w e)).fields) := by
  refine congrArg _ (State.request_of (st := .ok)
    (bytes := (startReply c (s.beginStroke h w e)).fields) (startAnswer_stamps h []) takes
    (Nat.zero_le _) ?_)
  rw [startAnswer_nil_of_armed (by simpa using armed),
    State.startArmed_of_ready (by simpa using claim) (by simpa using copy) (by simpa using homed)
      (by simpa using counting) (by simpa using stable) (by simpa using light),
    State.acceptStart_of_site (e := e) (by simpa using site), State.startStroke_withReply]
  simp [State.beginStroke, startReply]

end

/-! ### The group results completed (R122) -/

/-- The result of a group not judged (R122). -/
def unreached (index : Nat) : GroupResult :=
  { index := index, status := .notReached, step := none, mean := none, deficit := none }

theorem notReached_eq_range' (index : Nat) (gs : List Group) :
    notReached index gs = (List.range' index gs.length).map unreached := by
  induction gs generalizing index with
  | nil => rfl
  | cons g gs ih => rw [notReached, ih]; rfl

/-- The groups not judged are those of the numbers above the results there are. -/
theorem Evaluation.complete_eq (e : Evaluation) (gs : List Group) (restrike : Bool) :
    e.complete gs restrike = if restrike then e else { e with
      results := e.results ++ (List.range (gs.length - e.results.length)).map fun i =>
        unreached (e.results.length + i + 1) } := by
  have numbers (i : Nat) : e.results.length + 1 + i = e.results.length + i + 1 := by omega
  simp only [Evaluation.complete, notReached_eq_range', List.length_drop,
    List.range'_eq_map_range, List.map_map, Function.comp_def, numbers]

@[simp] theorem Evaluation.complete_failures (e : Evaluation) (gs : List Group) (restrike : Bool) :
    (e.complete gs restrike).failures = e.failures := by
  cases restrike <;> rfl

@[simp] theorem Evaluation.complete_firstBandDepth (e : Evaluation) (gs : List Group)
    (restrike : Bool) : (e.complete gs restrike).firstBandDepth = e.firstBandDepth := by
  cases restrike <;> rfl

@[simp] theorem Evaluation.complete_overtravel (e : Evaluation) (gs : List Group)
    (restrike : Bool) : (e.complete gs restrike).overtravel = e.overtravel := by
  cases restrike <;> rfl

/-! ### The verdict (R100, R154) -/

theorem FailureSet.isEmpty_iff (f : FailureSet) : f.isEmpty = true ↔
    f.bandHigh = false ∧ f.bandLow = false ∧ f.groupLow = false ∧ f.groupHigh = false := by
  simp [FailureSet.isEmpty, and_assoc]

/-- The verdict on a failure set (R100). -/
def FailureSet.verdict (f : FailureSet) : StrokeOutcome := if f.isEmpty then .pass else .reject

/-- The outcome that a verdict hands to the site (R59, R100). -/
def FailureSet.ending (f : FailureSet) (seat : Int) : Ending :=
  if f.isEmpty then .pass seat else .reject f

theorem State.eventVerdict_of_site {s : State} {n : Fin 96} {e : SiteEntry}
    (entry : s.site n = some e) (h : Head) (o : StrokeOutcome) (f : FailureSet) :
    s.eventVerdict h n o f = s.event h 70
      (u8 n.val ++ u8 o.code ++ u8 f.code ++ u8 e.state.code ++ u8 e.attempts) := by
  rw [State.eventVerdict, entry]
  rfl

/-- The stroke variables with the group results completed (R122). -/
def Stroke.completed (k : Stroke) (c : Claim) (w : WorkingCopy) : Stroke :=
  { k with eval := k.eval.complete w.fields.groups c.restrike }

/-- What a verdict makes of the records, of the head and of its site, whose entry was `e` (R100). -/
def State.recordVerdict (s : State) (h : Head) (c : Claim) (w : WorkingCopy) (k : Stroke)
    (e : SiteEntry) (seat : Int) : State :=
  ((s.appendRecord (pressRecord h c w (k.completed c w) (s.front h).heldCount
      k.eval.failures.verdict none)).setMonitor h
    { s.monitor h with
      state := .retract, permit := false, slot := false, stroke := some (k.completed c w) }).setSite
    c.site (some (e.apply (k.eval.failures.ending seat)))

/-- A verdict in its order: record, head and site, then the user released, then the tare tracker
restarted and VERDICT queued (R100). -/
theorem State.giveVerdict_of_seated {s : State} {h : Head} {c : Claim} {w : WorkingCopy}
    {k : Stroke} {e : SiteEntry} {seat : Int} (claim : (s.monitor h).claim = some c)
    (copy : (s.monitor h).copy = some w) (stroke : (s.monitor h).stroke = some k)
    (site : s.site c.site = some e) (seated : k.seatDepth = some seat) :
    s.giveVerdict h =
      let released := (s.recordVerdict h c w k e seat).releaseUser w.typeNo
      let e' := e.apply (k.eval.failures.ending seat)
      { state := (released.state.setFront h (s.front h).restartTare).event h 70
          (u8 c.site.val ++ u8 k.eval.failures.verdict.code ++ u8 k.eval.failures.code
            ++ u8 e'.state.code ++ u8 e'.attempts)
        due := released.due } := by
  have entry (r : PressRecord) (m : Monitor) :
      ((s.appendRecord r).setMonitor h m).site c.site = some e := by simpa using site
  have left : ((((s.recordVerdict h c w k e seat).releaseUser w.typeNo).state.setFront h
      (s.front h).restartTare)).site c.site = some (e.apply (k.eval.failures.ending seat)) := by
    simp [State.recordVerdict]
  simp only [← State.eventVerdict_of_site left]
  simp only [State.giveVerdict, State.recordVerdict, Stroke.completed, FailureSet.verdict,
    FailureSet.ending, claim, copy, stroke, seated, State.changeSite_of_site (entry _ _),
    Evaluation.complete_failures, Option.getD_some]

/-! ### The statements -/

/-- Settles O11: the answer of HOME by the head state. -/
theorem homeZeroesThePosition : Obligations.HomeZeroesThePosition := by
  intro h tag payload s takes
  refine ⟨fun some_bytes short => ?_, fun free => exec_home_of_free tag takes free,
    fun not_idle not_waiting => ?_⟩
  · exact exec_home_turnDown takes short (homeAnswer_badLength h _ some_bytes)
  · refine exec_home_turnDown takes (Nat.zero_le _) ?_
    rw [homeAnswer_nil, State.withReply_monitor, if_neg (not_or.2 ⟨not_idle, not_waiting⟩)]

/-- Settles O32: the checks of START passed on a CLAIMED site, and the times in samples by Euclidean
division. -/
theorem startBeginsTheStroke : Obligations.StartBeginsTheStroke := by
  refine ⟨fun h tag c w e h' g s takes armed claim copy homed counting stable light site claimed =>
    ?_, samplesOf_least⟩
  have started := exec_start_of_ready tag takes armed claim copy homed counting stable light site
  rw [State.startStroke_of_site site, SiteEntry.press_of_claimed claimed] at started
  exact started

/-- Settles O38: the verdict in its order, with the failure set empty and not. -/
theorem verdictAppendsTheRecord : Obligations.VerdictAppendsTheRecord := by
  intro h c w k e seat s claim copy stroke site seated m fs passed judged eval e' record released
  have given := State.giveVerdict_of_seated claim copy stroke site seated
  have results : k.eval.complete w.fields.groups c.restrike = eval := Evaluation.complete_eq ..
  have completed : k.completed c w = { k with eval := eval } := by rw [Stroke.completed, results]
  have verdict : fs.verdict = if passed then .pass else .reject := by
    simp only [FailureSet.verdict, FailureSet.isEmpty_iff, passed]
  have applied : e.apply (fs.ending seat) = e' := by
    simp only [FailureSet.ending, FailureSet.isEmpty_iff, passed, e', apply_ite e.apply]
  have code : u8 fs.verdict.code = if passed then [0] else [1] := by
    rw [verdict]
    split <;> rfl
  have recorded : pressRecord h c w (k.completed c w) (s.front h).heldCount fs.verdict none =
      record := by
    simp [pressRecord, Stroke.completed, verdict, seated, record, ← results, fs]
  rw [State.recordVerdict, recorded, completed, applied, code] at given
  exact given

end Sys2Proof.Machine

end

section
/-! The force bands of the Profile Evaluator (section 6): when a band check fails a sample, and what
stage 2 of R110 leaves of the evaluation state. -/

namespace Sys2Proof.Machine

section Bands

variable (e : Evaluation) (r : TypeRecord) (gs : List Group) (before : Option Int) (maxD d f : Int)

/-! ### Where a band fails a sample (R112, R113) -/

/-- A group is entered, and the net force exceeds the upper band (R112). -/
abbrev AboveBand (gs : List Group) (maxD f : Int) : Prop :=
  entered gs maxD ≠ [] ∧ (upperForce (entered gs maxD) : Int) < f

/-- The latest entered group is settled, and the net force is less than the lower band (R113). -/
abbrev BelowBand (gs : List Group) (maxD f : Int) : Prop :=
  lowerApplies (entered gs maxD) maxD = true ∧ f < (lowerForce (entered gs maxD) : Int)

theorem lowerApplies_iff :
    lowerApplies gs maxD = true ↔
      ∃ g, gs.getLast? = some g ∧ ((g.entry + g.settle : Nat) : Int) ≤ maxD := by
  unfold lowerApplies
  cases gs.getLast? <;> simp

theorem Evaluation.checkBands_failures_bandHigh :
    (e.checkBands gs maxD d f).failures.bandHigh = true ↔
      e.failures.bandHigh = true ∨ AboveBand gs maxD f := by
  simp [Evaluation.checkBands]

theorem Evaluation.checkBands_failures_bandLow :
    (e.checkBands gs maxD d f).failures.bandLow = true ↔
      e.failures.bandLow = true ∨ BelowBand gs maxD f := by
  simp [Evaluation.checkBands]

/-- Only the first failing sample sets the first band-failure depth. -/
theorem Evaluation.checkBands_firstBandDepth :
    (e.checkBands gs maxD d f).firstBandDepth =
      if e.firstBandDepth = none ∧ (AboveBand gs maxD f ∨ BelowBand gs maxD f) then some d
      else e.firstBandDepth := by
  simp [Evaluation.checkBands]

/-! ### Stage 2 of R110 on a stroke without restrike -/

/-- The evaluation state between stages 2 and 3 of R110: the bands are checked while the maximum depth
is below the seat zone start (R114). -/
def Evaluation.bandsJudged (e : Evaluation) (r : TypeRecord) (maxD d f : Int) : Evaluation :=
  if maxD < (r.seatStart : Int) then e.checkBands r.groups maxD d f else e

theorem Evaluation.judgeSample_stroke :
    e.judgeSample r false before maxD d f =
      (e.bandsJudged r maxD d f).takeGroups r.groups before maxD f := by
  simp only [Evaluation.judgeSample, Evaluation.bandsJudged, Bool.false_eq_true, if_false,
    apply_ite (Evaluation.takeGroups · r.groups before maxD f)]

theorem Evaluation.judgeSample_restrike : e.judgeSample r true before maxD d f = e := rfl

theorem Evaluation.bandsJudged_failures_bandHigh :
    (e.bandsJudged r maxD d f).failures.bandHigh = true ↔
      e.failures.bandHigh = true ∨ maxD < r.seatStart ∧ AboveBand r.groups maxD f := by
  unfold Evaluation.bandsJudged
  split
  case isTrue before_seat => simp only [checkBands_failures_bandHigh, before_seat, true_and]
  case isFalse in_seat => simp only [in_seat, false_and, or_false]

theorem Evaluation.bandsJudged_failures_bandLow :
    (e.bandsJudged r maxD d f).failures.bandLow = true ↔
      e.failures.bandLow = true ∨ maxD < r.seatStart ∧ BelowBand r.groups maxD f := by
  unfold Evaluation.bandsJudged
  split
  case isTrue before_seat => simp only [checkBands_failures_bandLow, before_seat, true_and]
  case isFalse in_seat => simp only [in_seat, false_and, or_false]

theorem Evaluation.bandsJudged_firstBandDepth :
    (e.bandsJudged r maxD d f).firstBandDepth =
      if e.firstBandDepth = none ∧ (maxD < r.seatStart ∧ AboveBand r.groups maxD f ∨
          maxD < r.seatStart ∧ BelowBand r.groups maxD f) then some d
      else e.firstBandDepth := by
  unfold Evaluation.bandsJudged
  split
  case isTrue before_seat => simp only [checkBands_firstBandDepth, before_seat, true_and]
  case isFalse in_seat => simp only [in_seat, false_and, or_self, and_false, if_false]

/-- The bands touch the two band failures and the first band-failure depth alone. -/
theorem Evaluation.bandsJudged_frame :
    e.bandsJudged r maxD d f = { e with
      firstBandDepth := (e.bandsJudged r maxD d f).firstBandDepth
      failures := { e.failures with
        bandHigh := (e.bandsJudged r maxD d f).failures.bandHigh
        bandLow := (e.bandsJudged r maxD d f).failures.bandLow } } := by
  unfold Evaluation.bandsJudged
  split <;> rfl

end Bands

/-! ### The statement -/

/-- Settles O44: a sample is the band checks and then the group steps, which keep the band failures and
the first band-failure depth. -/
theorem forceBandsAreChecked : Obligations.ForceBandsAreChecked := by
  intro e r before maxD d f after inside high low
  have stages : after = (e.bandsJudged r maxD d f).takeGroups r.groups before maxD f :=
    e.judgeSample_stroke r before maxD d f
  have below : low ↔ maxD < r.seatStart ∧ BelowBand r.groups maxD f := by
    rw [BelowBand, lowerApplies_iff]
    rfl
  have above : high ↔ maxD < r.seatStart ∧ AboveBand r.groups maxD f := Iff.rfl
  have first : after.firstBandDepth = (e.bandsJudged r maxD d f).firstBandDepth := by
    rw [stages, Evaluation.takeGroups_firstBandDepth]
  have upper : after.failures.bandHigh = (e.bandsJudged r maxD d f).failures.bandHigh := by
    rw [stages, Evaluation.takeGroups_failures_bandHigh]
  have lower : after.failures.bandLow = (e.bandsJudged r maxD d f).failures.bandLow := by
    rw [stages, Evaluation.takeGroups_failures_bandLow]
  rw [first, upper, lower, above, below, Evaluation.bandsJudged_failures_bandHigh,
    Evaluation.bandsJudged_failures_bandLow]
  refine ⟨Iff.rfl, Iff.rfl, fun x set => ?_, fun unset fails => ?_, fun unset not_above not_below => ?_,
    ⟨_, stages, e.bandsJudged_frame r maxD d f⟩, e.judgeSample_restrike r before maxD d f⟩
  · rw [Evaluation.bandsJudged_firstBandDepth, if_neg fun ⟨unset, _⟩ => by simp [set] at unset, set]
  · rw [Evaluation.bandsJudged_firstBandDepth, if_pos ⟨unset, fails⟩]
  · rw [Evaluation.bandsJudged_firstBandDepth,
      if_neg fun ⟨_, fails⟩ => fails.elim not_above not_below, unset]

end Sys2Proof.Machine

end

section
/-! The end of a stroke (sections 5 and 7): RETRACTED and HALT_ACK, and the board that ABORTING
closes. -/

namespace Sys2Proof.Machine

/-! ### The end of ABORTING (R46) -/

section
variable {s : State}

theorem State.closeIfAborted_of_not_aborting (steady : s.board.state ≠ .aborting) :
    s.closeIfAborted = s := if_neg fun ⟨aborting, _⟩ => steady aborting

theorem State.closeIfAborted_of_unacknowledged (kept : s.someUnacknowledged = true) :
    s.closeIfAborted = s := if_neg fun ⟨_, freed⟩ => by simp [kept] at freed

theorem State.closeIfAborted_of_aborting (aborting : s.board.state = .aborting)
    (freed : s.someUnacknowledged = false) : s.closeIfAborted = s.closeBoard :=
  if_pos ⟨aborting, freed⟩

theorem State.someUnacknowledged_eq_false_iff (s : State) : s.someUnacknowledged = false ↔
    ∀ h, (s.monitor h).state ≠ .halted ∧ (s.monitor h).state ≠ .retract := by
  rw [← Bool.not_eq_true, State.someUnacknowledged_iff]
  simp only [not_exists, not_or]

end

/-! ### A head leaves its stroke (R84) -/

@[simp] theorem State.withReply_zonesHeld (s : State) (l : Link) (kind tag : Byte) (st : Status)
    (bytes : List Byte) (h : Head) :
    (s.withReply l kind tag st bytes).zonesHeld h = s.zonesHeld h := by
  simp [State.zonesHeld]

theorem State.length_zonesHeld (s : State) (h : Head) :
    (s.zonesHeld h).length = (List.finRange 32).countP fun z => s.holder z == some h :=
  List.countP_eq_length_filter.symm

/-- Leaving a stroke, from a state that has the zones and the monitors of another: a reply queued or a
record appended before it does not show in what it frees. -/
theorem State.leaveStroke_of_same {s t : State} (zones : t.zones = s.zones)
    (monitors : t.monitors = s.monitors) (h : Head) :
    t.leaveStroke h = ({ t with
      zones := Vector.ofFn fun z => if s.holder z = some h then none else s.holder z
      monitors := s.monitors.set h Monitor.idle }.pass none).closeIfAborted := by
  have holders : s.holder = t.holder := funext fun z => by rw [State.holder, State.holder, zones]
  rw [State.leaveStroke, State.toIdle, State.setMonitor, State.freeZones, holders, monitors]

/-! ### RETRACTED (R101) -/

section
variable {s : State} {h : Head} {tag : Byte}

theorem retractedAnswer_badLength {payload : List Byte} (some_bytes : payload ≠ []) :
    retractedAnswer h payload s = s.turnDown .badLength :=
  if_pos (mt List.eq_nil_of_length_eq_zero some_bytes)

/-- RETRACTED without a payload is decided by the head state alone (R101). -/
theorem retractedAnswer_nil (h : Head) (s : State) :
    retractedAnswer h [] s =
      if (s.monitor h).state = .retract then
        (s.leaveStroke h).answer .ok (u8 (s.zonesHeld h).length)
      else s.turnDown .headState := rfl

theorem exec_retracted_of {payload : List Byte} {st : Status} {bytes : List Byte} {t : State}
    (takes : s.takes (.head h) = true) (short : payload.length ≤ 250)
    (answer : retractedAnswer h payload (s.withReply (.head h) 21 tag st bytes) =
      t.answer st bytes) : exec (.retracted h tag payload) s = .next t :=
  congrArg _ (State.request_of (retractedAnswer_stamps h payload) takes short answer)

theorem exec_retracted_of_not_retract (takes : s.takes (.head h) = true)
    (elsewhere : (s.monitor h).state ≠ .retract) :
    exec (.retracted h tag []) s = .next (s.withReply (.head h) 21 tag .headState []) := by
  refine exec_retracted_of (st := .headState) (bytes := []) takes (Nat.zero_le _) ?_
  rw [retractedAnswer_nil, State.withReply_monitor, if_neg elsewhere]
  rfl

/-- RETRACTED in RETRACT: the head leaves its stroke with the zones released told (R101). -/
theorem exec_retracted_of_retract (takes : s.takes (.head h) = true)
    (retract : (s.monitor h).state = .retract) :
    exec (.retracted h tag []) s = .next ((s.withReply (.head h) 21 tag .ok
      (u8 (s.zonesHeld h).length)).leaveStroke h) := by
  refine exec_retracted_of (st := .ok) (bytes := u8 (s.zonesHeld h).length) takes (Nat.zero_le _) ?_
  rw [retractedAnswer_nil, State.withReply_monitor, if_pos retract, State.withReply_zonesHeld]

end

/-! ### HALT_ACK (R140) -/

section
variable {s : State} {h : Head} {tag : Byte}

theorem haltAckAnswer_badLength {payload : List Byte} (some_bytes : payload ≠ []) :
    haltAckAnswer h payload s = s.turnDown .badLength :=
  if_pos (mt List.eq_nil_of_length_eq_zero some_bytes)

theorem haltAckAnswer_of_not_halted (elsewhere : (s.monitor h).state ≠ .halted) :
    haltAckAnswer h [] s = s.turnDown .headState := by
  unfold haltAckAnswer
  rw [if_neg (not_not.2 List.length_nil)]
  split
  case h_1 halted _ => exact absurd halted elsewhere
  case h_2 => rfl

theorem exec_haltAck_of {payload : List Byte} {st : Status} {bytes : List Byte} {t : State}
    (takes : s.takes (.head h) = true) (short : payload.length ≤ 250)
    (answer : haltAckAnswer h payload (s.withReply (.head h) 22 tag st bytes) =
      t.answer st bytes) : exec (.haltAck h tag payload) s = .next t :=
  congrArg _ (State.request_of (haltAckAnswer_stamps h payload) takes short answer)

section
variable {k : Stroke} {a : AbortItems}

theorem haltAckAnswer_of_halted (halted : (s.monitor h).state = .halted)
    (stroke : (s.monitor h).stroke = some k) (abort : k.abort = some a) :
    haltAckAnswer h [] s = s.acknowledge h a := by
  simp [haltAckAnswer, halted, stroke, abort]

/-- HALT_ACK in HALTED: the record due is appended, and the head then leaves its stroke, with the
primary cause, the zones released and whether a record was appended told (R140). -/
theorem exec_haltAck_of_halted (takes : s.takes (.head h) = true)
    (halted : (s.monitor h).state = .halted) (stroke : (s.monitor h).stroke = some k)
    (abort : k.abort = some a) :
    exec (.haltAck h tag []) s = .next (((s.withReply (.head h) 22 tag .ok
      (u8 a.primary.code ++ u8 (s.zonesHeld h).length ++ flagByte a.record.isSome)).appendDue
        a.record).leaveStroke h) := by
  refine exec_haltAck_of (st := .ok) (bytes := u8 a.primary.code ++ u8 (s.zonesHeld h).length ++
    flagByte a.record.isSome) takes (Nat.zero_le _) ?_
  rw [haltAckAnswer_of_halted (k := k) (a := a) (by simpa using halted) (by simpa using stroke) abort,
    State.acknowledge, State.withReply_zonesHeld]

/-- With a record due, its causes are taken as they stand, and the reply tells it appended (R140). -/
theorem exec_haltAck_of_due {r : PressRecord} (takes : s.takes (.head h) = true)
    (halted : (s.monitor h).state = .halted) (stroke : (s.monitor h).stroke = some k)
    (abort : k.abort = some a) (due : a.due = some r) :
    exec (.haltAck h tag []) s = .next (({ s with
      records := s.records ++ [{ r with causes := some (a.primary, a.further) }] }.withReply
        (.head h) 22 tag .ok (u8 a.primary.code ++ u8 (s.zonesHeld h).length ++ [1])).leaveStroke
          h) := by
  rw [exec_haltAck_of_halted takes halted stroke abort, AbortItems.record, due]
  rfl

theorem exec_haltAck_of_none_due (takes : s.takes (.head h) = true)
    (halted : (s.monitor h).state = .halted) (stroke : (s.monitor h).stroke = some k)
    (abort : k.abort = some a) (due : a.due = none) :
    exec (.haltAck h tag []) s = .next ((s.withReply (.head h) 22 tag .ok
      (u8 a.primary.code ++ u8 (s.zonesHeld h).length ++ [0])).leaveStroke h) := by
  rw [exec_haltAck_of_halted takes halted stroke abort, AbortItems.record, due]
  rfl

end

end

/-! ### The statement -/

/-- Settles O39: each request by its refusals and its one effect, the frame of `leaveStroke` taken
over the reply and the record appended; and the cases of `closeIfAborted`. -/
theorem headsLeaveTheirStroke : Obligations.HeadsLeaveTheirStroke := by
  intro h tag s takes zones left
  have zones_told : u8 (s.zonesHeld h).length = zones := congrArg u8 (s.length_zonesHeld h)
  have leave (t : State) (same_zones : t.zones = s.zones) (same_monitors : t.monitors = s.monitors) :
      t.leaveStroke h = left t := State.leaveStroke_of_same same_zones same_monitors h
  refine ⟨fun payload some_bytes short => ⟨?_, ?_⟩, exec_retracted_of_not_retract takes,
    fun elsewhere => ?_, fun retract => ?_,
    fun k a halted stroke abort => ⟨fun r due => ?_, fun due => ?_⟩,
    fun s' => State.closeIfAborted_of_not_aborting, fun s' aborting => ⟨fun kept => ?_,
      fun freed => ?_⟩⟩
  · exact exec_retracted_of takes short (retractedAnswer_badLength some_bytes)
  · exact exec_haltAck_of takes short (haltAckAnswer_badLength some_bytes)
  · exact exec_haltAck_of takes (Nat.zero_le _)
      (haltAckAnswer_of_not_halted (by simpa using elsewhere))
  · rw [exec_retracted_of_retract takes retract, zones_told, leave _ (by simp) (by simp)]
  · rw [exec_haltAck_of_due takes halted stroke abort due, zones_told, leave _ (by simp) (by simp)]
  · rw [exec_haltAck_of_none_due takes halted stroke abort due, zones_told,
      leave _ (by simp) (by simp)]
  · exact State.closeIfAborted_of_unacknowledged ((State.someUnacknowledged_iff s').2 kept)
  · exact State.closeIfAborted_of_aborting aborting
      ((State.someUnacknowledged_eq_false_iff s').2 freed)

end Sys2Proof.Machine

end

section
/-! The result queue (section 8): TAKE_RECORD, the places of a press record's fields as it is sent, and
ATTN. -/

namespace Sys2Proof.Machine

/-! ### Numbers as sent (R176) -/

/-- One byte read back is the number sent, modulo 256. -/
theorem u8_read_mod (n : Nat) : (BitVec.ofNat 8 n).toNat = n % 256 := BitVec.toNat_ofNat n 8

/-- Two bytes read back are the number sent, modulo 65,536. -/
theorem u16_read_mod (n : Nat) :
    (BitVec.ofNat 8 (n / 256)).toNat * 256 + (BitVec.ofNat 8 n).toNat = n % 65536 := by
  simp only [u8_read_mod]
  omega

theorem at32_drop (p : List Byte) (i k : Nat) : at32 (p.drop i) k = at32 p (i + k) := by
  simp only [at32, at16_drop, add_assoc]

theorem signed32_lt (x : Int) : signed32 x < 4294967296 := by
  unfold signed32
  omega

/-- A signed number is sent as the unsigned number of its two's complement. -/
theorem s32_eq (x : Int) : s32 x = u32 (signed32 x) := congrArg u32 (BitVec.toNat_ofInt x)

theorem packBits_lt (bs : List Bool) : packBits bs < 2 ^ bs.length := by
  induction bs with
  | nil => exact Nat.one_pos
  | cons b bs ih =>
    have bit := b.toNat_lt
    rw [packBits, List.length_cons, pow_succ]
    omega

/-- Up to eight flags fit a byte. -/
theorem packBits_lt_byte {bs : List Bool} (few : bs.length ≤ 8) : packBits bs < 256 :=
  (packBits_lt bs).trans_le (Nat.pow_le_pow_right (by decide) few : 2 ^ bs.length ≤ 2 ^ 8)

theorem FailureSet.code_eq (f : FailureSet) : f.code =
    f.bandHigh.toNat + 2 * f.bandLow.toNat + 4 * f.groupLow.toNat + 8 * f.groupHigh.toNat := by
  simp only [FailureSet.code, packBits]
  omega

theorem FailureSet.code_lt (f : FailureSet) : f.code < 256 :=
  packBits_lt_byte (by decide : 4 ≤ 8)

/-! ### Optional fields of a record (R179) -/

theorem getD_map_lt {α : Type} {f : α → Nat} {n : Nat} (o : Option α) (below : ∀ a, f a < n)
    (pos : 0 < n) : (o.map f).getD 0 < n := by
  cases o with
  | none => exact pos
  | some a => exact below a

/-- An optional field is sent as the number it holds, and as 0 where it is absent. -/
theorem slotField_map {α : Type} {width : Nat} {send : Nat → List Byte}
    (zero : send 0 = List.replicate width 0) (o : Option α) (f : α → Nat) :
    slotField width (o.map fun a => send (f a)) = send ((o.map f).getD 0) := by
  cases o with
  | none => exact zero.symm
  | some a => rfl

theorem slotField_u8 {α : Type} (o : Option α) (f : α → Nat) :
    slotField 1 (o.map fun a => u8 (f a)) = u8 ((o.map f).getD 0) := slotField_map rfl o f

theorem slotField_u16 {α : Type} (o : Option α) (f : α → Nat) :
    slotField 2 (o.map fun a => u16 (f a)) = u16 ((o.map f).getD 0) := slotField_map rfl o f

theorem slotField_s32 (o : Option Int) :
    slotField 4 (o.map s32) = u32 ((o.map signed32).getD 0) := by
  rw [funext s32_eq]
  exact slotField_map rfl o signed32

theorem slotField_tiltBytes (o : Option Nat) :
    slotField 2 (o.map tiltBytes) = u16 ((o.map fun i => min i 65535).getD 0) :=
  slotField_u16 o fun i => min i 65535

/-! ### A group result as sent (R179) -/

theorem resultBytes_eq (g : GroupResult) : resultBytes g =
    u8 g.index ++ (u8 g.status.code ++ (u8 (packBits [g.step.isSome, g.deficit.isSome]) ++
      (u32 ((g.step.map signed32).getD 0) ++ (u32 ((g.mean.map signed32).getD 0) ++
        u16 (g.deficit.getD 0))))) := by
  have deficit : slotField 2 (g.deficit.map u16) = u16 (g.deficit.getD 0) := by
    simpa using slotField_u16 g.deficit id
  simp only [resultBytes, slotField_s32, deficit, List.append_assoc]

theorem length_resultBytes (g : GroupResult) : (resultBytes g).length = 13 := by
  rw [resultBytes_eq]
  rfl

theorem GroupStatus.code_lt (st : GroupStatus) : st.code < 256 := by
  cases st <;> decide

/-- The fields of a group result, each read at its place. -/
theorem resultBytes_places (g : GroupResult) (rest : List Byte) :
    let p := resultBytes g ++ rest
    at8 p 0 = g.index % 256 ∧ at8 p 1 = g.status.code ∧
    at8 p 2 = g.step.isSome.toNat + 2 * g.deficit.isSome.toNat ∧
    at32 p 3 = (g.step.map signed32).getD 0 ∧ at32 p 7 = (g.mean.map signed32).getD 0 ∧
    at16 p 11 = (g.deficit.map fun n => n % 65536).getD 0 := by
  have deficit : g.deficit.getD 0 % 65536 = (g.deficit.map fun n => n % 65536).getD 0 := by
    cases g.deficit <;> rfl
  rw [resultBytes_eq, ← deficit]
  exact ⟨u8_read_mod _, u8_read g.status.code_lt,
    u8_read (packBits_lt_byte (by decide : 2 ≤ 8)),
    u32_read (getD_map_lt _ signed32_lt (by decide)),
    u32_read (getD_map_lt _ signed32_lt (by decide)), u16_read_mod _⟩

/-- Entries of one length: the entry at place `k` begins after `k` of them. -/
theorem drop_flatten_of_length {α : Type} {xss : List (List α)} {width k : Nat} {xs : List α}
    (lengths : ∀ ys ∈ xss, ys.length = width) (entry : xss[k]? = some xs) :
    ∃ rest, xss.flatten.drop (width * k) = xs ++ rest := by
  induction xss generalizing k with
  | nil => cases entry
  | cons ys yss ih =>
    rw [List.forall_mem_cons] at lengths
    obtain ⟨first, others⟩ := lengths
    cases k with
    | zero =>
      obtain rfl : ys = xs := by simpa using entry
      exact ⟨yss.flatten, rfl⟩
    | succ k =>
      obtain ⟨rest, place⟩ := ih others (by simpa using entry)
      refine ⟨rest, ?_⟩
      rw [List.flatten_cons, mul_add_one, Nat.add_comm, ← List.drop_drop, ← first,
        List.drop_left, first, place]

/-! ### A press record as sent (R179) -/

/-- The 45 bytes of a press record before its group results, every field a number of its width. -/
def recordHeader (r : PressRecord) : List Byte :=
  u32 r.serial.toNat ++ (u8 r.site.val ++ (u8 r.typeNo.val ++ (u32 r.partCode.toNat ++
    (u8 (headNo r.head) ++ (u8 r.attempt ++ (u8 (packBits [r.restrike, r.samplesSaturated]) ++
    (u8 r.outcome.code ++
    (u8 (packBits [r.failures.isSome, r.firstBandDepth.isSome, r.causes.isSome,
        r.contactPosition.isSome, r.seatDepth.isSome, r.overtravel.isSome, r.peakTilt.isSome,
        r.groups.isSome]) ++
    (u8 ((r.failures.map (·.code)).getD 0) ++ (u32 ((r.firstBandDepth.map signed32).getD 0) ++
    (u8 ((r.causes.map fun c => c.1.code).getD 0) ++
    (u16 ((r.causes.map fun c => causesCode c.2).getD 0) ++
    (u32 ((r.contactPosition.map signed32).getD 0) ++ (u32 ((r.seatDepth.map signed32).getD 0) ++
    (u32 ((r.overtravel.map signed32).getD 0) ++ (u32 (signed32 r.peakForce) ++
    (u16 ((r.peakTilt.map fun i => min i 65535).getD 0) ++ (u16 r.samples ++ (u8 r.heldCount ++
    u8 (r.groups.getD []).length)))))))))))))))))))

theorem recordBytes_eq (r : PressRecord) : recordBytes r =
    recordHeader r ++ ((r.groups.getD []).map resultBytes).flatten := by
  unfold recordBytes recordHeader
  simp only [listField, slotField_u8, slotField_u16, slotField_s32, slotField_tiltBytes, s32_eq,
    List.length_map, List.append_assoc]

theorem length_recordHeader (r : PressRecord) : (recordHeader r).length = 45 := by
  simp [recordHeader, u8, u16, u32]

theorem length_recordBytes (r : PressRecord) :
    (recordBytes r).length = 45 + 13 * (r.groups.getD []).length := by
  have widths : (List.length ∘ resultBytes) = fun _ => 13 := funext length_resultBytes
  simp [recordBytes_eq, length_recordHeader, List.length_flatten, widths, mul_comm]

theorem StrokeOutcome.code_lt (o : StrokeOutcome) : o.code < 256 := by
  cases o <;> decide

theorem Cause.code_lt (c : Cause) : c.code < 256 := by
  cases c <;> decide

theorem headNo_lt (h : Head) : headNo h < 256 := by
  cases h <;> decide

/-- The presence byte: bit `n` for the optional field of place `n`. -/
theorem presence_eq (a b c d e f g h : Bool) : packBits [a, b, c, d, e, f, g, h] =
    a.toNat + 2 * b.toNat + 4 * c.toNat + 8 * d.toNat + 16 * e.toNat + 32 * f.toNat
      + 64 * g.toNat + 128 * h.toNat := by
  simp only [packBits]
  omega

section
variable (r : PressRecord)

/-- The fields every record has before its presence byte, each read at its place. -/
theorem recordBytes_identity :
    let b := recordBytes r
    at32 b 0 = r.serial.toNat ∧ at8 b 4 = r.site.val ∧ at8 b 5 = r.typeNo.val ∧
    at32 b 6 = r.partCode.toNat ∧ at8 b 10 = headNo r.head ∧ at8 b 11 = r.attempt % 256 ∧
    at8 b 12 = r.restrike.toNat + 2 * r.samplesSaturated.toNat ∧
    at8 b 13 = r.outcome.code := by
  rw [recordBytes_eq]
  exact ⟨u32_read r.serial.isLt, u8_read (by omega), u8_read (by omega), u32_read r.partCode.isLt,
    u8_read (headNo_lt _), u8_read_mod _, u8_read (packBits_lt_byte (by decide : 2 ≤ 8)),
    u8_read r.outcome.code_lt⟩

/-- The presence byte and the optional fields, each read at its place. -/
theorem recordBytes_optional :
    let b := recordBytes r
    at8 b 14 = r.failures.isSome.toNat + 2 * r.firstBandDepth.isSome.toNat
      + 4 * r.causes.isSome.toNat + 8 * r.contactPosition.isSome.toNat
      + 16 * r.seatDepth.isSome.toNat + 32 * r.overtravel.isSome.toNat
      + 64 * r.peakTilt.isSome.toNat + 128 * r.groups.isSome.toNat ∧
    at8 b 15 = (r.failures.map (·.code)).getD 0 ∧
    at32 b 16 = (r.firstBandDepth.map signed32).getD 0 ∧
    at8 b 20 = (r.causes.map fun c => c.1.code).getD 0 ∧
    at16 b 21 = (r.causes.map fun c => causesCode c.2 % 65536).getD 0 ∧
    at32 b 23 = (r.contactPosition.map signed32).getD 0 ∧
    at32 b 27 = (r.seatDepth.map signed32).getD 0 ∧
    at32 b 31 = (r.overtravel.map signed32).getD 0 ∧
    at16 b 39 = (r.peakTilt.map fun i => min i 65535).getD 0 := by
  have signed (o : Option Int) := u32_read (getD_map_lt o signed32_lt (by decide))
  have causes : (r.causes.map fun c => causesCode c.2).getD 0 % 65536 =
      (r.causes.map fun c => causesCode c.2 % 65536).getD 0 := by
    cases r.causes <;> rfl
  have tilt : (r.peakTilt.map fun i => min i 65535).getD 0 < 65536 :=
    getD_map_lt _ (fun i => by omega) (by decide)
  rw [recordBytes_eq, ← presence_eq, ← causes]
  exact ⟨u8_read (packBits_lt_byte le_rfl),
    u8_read (getD_map_lt _ FailureSet.code_lt (by decide)), signed _,
    u8_read (getD_map_lt _ (fun c => c.1.code_lt) (by decide)), u16_read_mod _, signed _, signed _,
    signed _, u16_read tilt⟩

/-- The peak force and the counts, each read at its place. -/
theorem recordBytes_counts :
    let b := recordBytes r
    at32 b 35 = signed32 r.peakForce ∧ at16 b 41 = r.samples % 65536 ∧
    at8 b 43 = r.heldCount % 256 ∧ at8 b 44 = (r.groups.getD []).length % 256 := by
  rw [recordBytes_eq]
  exact ⟨u32_read (signed32_lt _), u16_read_mod _, u8_read_mod _, u8_read_mod _⟩

end

/-- The bytes of a record from its group result of place `k` on begin with that result. -/
theorem drop_recordBytes {r : PressRecord} {k : Nat} {g : GroupResult}
    (result : (r.groups.getD [])[k]? = some g) :
    ∃ rest, (recordBytes r).drop (45 + 13 * k) = resultBytes g ++ rest := by
  have lengths : ∀ ys ∈ (r.groups.getD []).map resultBytes, ys.length = 13 := by
    simpa using fun g _ => length_resultBytes g
  obtain ⟨rest, place⟩ := drop_flatten_of_length (k := k) (xs := resultBytes g) lengths
    (by simp [result])
  refine ⟨rest, ?_⟩
  rw [recordBytes_eq, ← List.drop_drop, ← length_recordHeader r, List.drop_left, place]

/-- The fields of the group result of place `k`, each read at its place in the record. -/
theorem recordBytes_result {r : PressRecord} {k : Nat} {g : GroupResult}
    (result : (r.groups.getD [])[k]? = some g) :
    let b := recordBytes r
    at8 b (45 + 13 * k) = g.index % 256 ∧ at8 b (46 + 13 * k) = g.status.code ∧
    at8 b (47 + 13 * k) = g.step.isSome.toNat + 2 * g.deficit.isSome.toNat ∧
    at32 b (48 + 13 * k) = (g.step.map signed32).getD 0 ∧
    at32 b (52 + 13 * k) = (g.mean.map signed32).getD 0 ∧
    at16 b (56 + 13 * k) = (g.deficit.map fun n => n % 65536).getD 0 := by
  obtain ⟨rest, place⟩ := drop_recordBytes result
  have fields := resultBytes_places g rest
  simp only [← place, at8_drop, at16_drop, at32_drop, Nat.add_right_comm 45] at fields
  exact fields

/-! ### TAKE_RECORD (R157) -/

section
variable {s : State} {tag : Byte}

theorem takeRecordAnswer_badLength {payload : List Byte} (some_bytes : payload ≠ []) :
    takeRecordAnswer payload s = s.turnDown .badLength :=
  if_pos (mt List.eq_nil_of_length_eq_zero some_bytes)

theorem takeRecordAnswer_of_empty (empty : s.records = []) :
    takeRecordAnswer [] s = s.answer .queueEmpty ([0] ++ u8 s.reserved) := by
  rw [takeRecordAnswer, empty]
  rfl

theorem takeRecordAnswer_of_oldest {r : PressRecord} {rest : List PressRecord}
    (oldest : s.records = r :: rest) : takeRecordAnswer [] s =
      (({ s with records := rest }).pass none).answer .ok (recordBytes r ++ u8 rest.length) := by
  rw [takeRecordAnswer, oldest]
  rfl

theorem exec_takeRecord_of {payload : List Byte} {st : Status} {bytes : List Byte} {t : State}
    (takes : s.takes .cell = true) (short : payload.length ≤ 250)
    (answer : takeRecordAnswer payload (s.withReply .cell 43 tag st bytes) = t.answer st bytes) :
    exec (.takeRecord tag payload) s = .next t :=
  congrArg _ (State.request_of (takeRecordAnswer_stamps payload) takes short answer)

end

/-! ### ATTN (R159) -/

theorem State.attn_iff (s : State) : s.attn = true ↔ s.records ≠ [] ∧ s.resetHeld = false := by
  simp [State.attn]

/-! ### The statement -/

/-- Settles O48: the three answers of TAKE_RECORD, its effects made behind the reply's place; and the
layout of a record, read from its header and from the bytes of each group result. -/
theorem takeRecordHandsOutTheOldest : Obligations.TakeRecordHandsOutTheOldest := by
  refine ⟨fun tag s takes => ⟨fun payload some_bytes short => ?_, fun empty => ?_,
    fun r rest oldest => ?_⟩, fun r => ?_, State.attn_iff⟩
  · exact exec_takeRecord_of takes short (takeRecordAnswer_badLength some_bytes)
  · exact exec_takeRecord_of takes (Nat.zero_le _) (takeRecordAnswer_of_empty empty)
  · exact exec_takeRecord_of takes (Nat.zero_le _) (takeRecordAnswer_of_oldest oldest)
  · obtain ⟨serial, site, type, part, head, attempt, flags, outcome⟩ := recordBytes_identity r
    obtain ⟨presence, failures, band, primary, further, contact, seat, overtravel, tilt⟩ :=
      recordBytes_optional r
    obtain ⟨force, samples, held, count⟩ := recordBytes_counts r
    rw [funext FailureSet.code_eq] at failures
    exact ⟨length_recordBytes r, serial, site, type, part, head, attempt, flags, outcome, presence,
      failures, band, primary, further, contact, seat, overtravel, force, tilt, samples, held, count,
      fun _ _ => recordBytes_result⟩

end Sys2Proof.Machine

end

section
/-! Two laws that a step can break: UNLOAD of a site CLAIMED under a head whose own claim still waits
(R52, R65). The law of sites forbids such a state, and the laws of the claim queue and of the result
slots do not. -/

namespace Sys2Proof.Machine

/-- An IDLE head holds nothing (R87). -/
theorem HeadSound.idle : HeadSound Monitor.idle where
  permit := rfl
  timer := by decide
  unclaimed := fun _ => ⟨rfl, rfl, rfl, rfl⟩
  claimed := fun busy => absurd rfl busy
  stroke := by decide
  reserved := by decide
  judged := by decide
  running := fun _ stroke => nomatch stroke
  halted := fun _ stroke => nomatch stroke

/-- A WAITING head holds nothing: its claim stands in the queue (R65, R87). -/
theorem HeadSound.waiting : HeadSound { Monitor.idle with state := .waiting } where
  permit := rfl
  timer := by decide
  unclaimed := fun _ => ⟨rfl, rfl, rfl, rfl⟩
  claimed := fun _ granted => absurd rfl granted
  stroke := by decide
  reserved := by decide
  judged := by decide
  running := fun _ stroke => nomatch stroke
  halted := fun _ stroke => nomatch stroke

/-- A site of type 0 and zone 0 in a state. -/
def plainSite (state : SiteState) : SiteEntry :=
  { typeNo := 0, x := 0, y := 0, keepOut := [0], state := state, attempts := 0, last := none }

/-- H0 WAITING for the LOADED site 0, whose type is ABSENT, while site 1 is CLAIMED by H0; the cell
link is UP, and UNLOAD of site 1 is the next command. -/
def strayClaim : State :=
  { State.reset with
    pending := [.unload 0 [1]]
    board := { state := .isOpen, serial := 0, bypassLimit := 4, holdTime := 50 }
    sites := ((Vector.replicate 96 none).set 0 (some (plainSite .loaded))).set 1
      (some (plainSite (.claimed .h0 .loaded)))
    queue := [{ head := .h0, claim := { site := 0, restrike := false }, bypass := 0 }]
    monitors := ⟨{ Monitor.idle with state := .waiting }, .idle, .idle, .idle⟩
    cellLink := { LinkState.reset with up := true } }

/-- The state after that UNLOAD: its revocation has made H0 IDLE, and the claim of H0 still waits. -/
def strayEntry : State :=
  { strayClaim with
    pending := []
    sites := strayClaim.sites.set 1 (some (plainSite .empty))
    monitors := State.reset.monitors
    headLinks := strayClaim.headLinks
    cellLink := { strayClaim.cellLink with out := [⟨166, 0, [0, 1, 1, 1]⟩] } }

theorem step_strayClaim : step strayClaim = .next strayEntry := rfl

theorem strayClaim_headsSound : HeadsSound strayClaim := by
  intro h
  cases h
  case h0 => exact .waiting
  all_goals exact .idle

/-- Its one waiting claim is that of its one WAITING head. -/
theorem strayClaim_claimsSound : ClaimsSound strayClaim where
  heads := strayClaim_headsSound
  once := by decide
  waiting := by intro h; cases h <;> decide
  bypass := by decide
  waitingOpen := fun _ => ⟨rfl, rfl⟩
  activeOpen := by intro h; cases h <;> decide

theorem strayClaim_slotLaw : SlotLaw strayClaim where
  toClaimsSound := strayClaim_claimsSound
  unreserved := by intro h; cases h <;> decide
  room := by decide

/-- An entry of the queue whose head is IDLE. -/
theorem not_claimsSound_strayEntry : ¬ ClaimsSound strayEntry := fun law =>
  absurd ((law.waiting .h0).2 (by decide)) (by decide)

/-- Refutes O56: the first law is broken by `strayClaim`, which UNLOAD leaves as `strayEntry`. -/
theorem not_everyStepKeepsTheSiteLaw : ¬ Obligations.EveryStepKeepsTheSiteLaw := fun kept =>
  have ⟨claims, _, _⟩ := kept strayClaim strayEntry step_strayClaim
  not_claimsSound_strayEntry (claims strayClaim_claimsSound)

/-- Refutes O58: the law of slots holds of `strayClaim`, and the law of the claim queue, which is a
part of it, fails after UNLOAD. -/
theorem not_everyStepKeepsTheSlotLaw : ¬ Obligations.EveryStepKeepsTheSlotLaw := fun kept =>
  not_claimsSound_strayEntry
    (kept strayClaim strayEntry step_strayClaim strayClaim_slotLaw).toClaimsSound

end Sys2Proof.Machine

end

section
/-! The ranges of the parts (sections 1 to 9): each operation on a slot, a site's entry, a front end, a
head or a link leaves the part within the ranges of Safety.lean. -/

namespace Sys2Proof.Machine

/-! ### Stored records and slots (section 2.3) -/

theorem addFaults_le (count n : Nat) : addFaults count n ≤ 255 := Nat.min_le_right ..

theorem StoredRecord.InOrder.corrected {r : StoredRecord} (order : r.InOrder) :
    r.corrected.InOrder := order.filter _

theorem StoredRecord.inOrder_fresh (r : TypeRecord) : (StoredRecord.fresh r).InOrder :=
  List.Pairwise.nil

/-- The order of the flipped bits of a stored record (log 11). -/
abbrev flipBefore (f g : Nat × Nat) : Prop := f.1 < g.1 ∨ (f.1 = g.1 ∧ f.2 < g.2)

/-- A bit that flips joins the flipped bits, or leaves them where it stands there (log 11). -/
theorem mem_toggleFlip {w b : Nat} {fs : List (Nat × Nat)} (order : fs.Pairwise flipBefore)
    (f : Nat × Nat) : f ∈ toggleFlip w b fs ↔
      (f = (w, b) ∧ f ∉ fs) ∨ (f ≠ (w, b) ∧ f ∈ fs) := by
  induction fs with
  | nil => simp [toggleFlip]
  | cons g rest ih =>
    obtain ⟨w', b'⟩ := g
    rw [List.pairwise_cons] at order
    obtain ⟨first, others⟩ := order
    have here : (w, b) ∈ rest → flipBefore (w', b') (w, b) := first _
    unfold toggleFlip
    split
    case isTrue same =>
      obtain ⟨rfl, rfl⟩ := same
      have apart : (w', b') ∉ rest := fun mem => by simpa [flipBefore] using first _ mem
      by_cases hf : f = (w', b')
      · simp [hf, apart]
      · simp [hf]
    case isFalse other =>
      have other' : (w, b) ≠ (w', b') := fun e => other ⟨(congrArg Prod.fst e).symm,
        (congrArg Prod.snd e).symm⟩
      split
      case isTrue before =>
        have apart : (w, b) ∉ rest := fun mem => by
          have := here mem
          simp only [flipBefore] at this
          omega
        by_cases hf : f = (w, b)
        · simp [hf, other', apart]
        · simp [hf]
      case isFalse =>
        rw [List.mem_cons, ih others]
        by_cases hf : f = (w, b)
        · simp [hf, other']
        · simp [hf]

theorem pairwise_toggleFlip {w b : Nat} {fs : List (Nat × Nat)} (order : fs.Pairwise flipBefore) :
    (toggleFlip w b fs).Pairwise flipBefore := by
  induction fs with
  | nil => exact List.pairwise_singleton ..
  | cons g rest ih =>
    obtain ⟨w', b'⟩ := g
    have tail := (List.pairwise_cons.1 order).2
    have first := (List.pairwise_cons.1 order).1
    unfold toggleFlip
    split
    case isTrue => exact tail
    case isFalse other =>
      split
      case isTrue before =>
        refine List.pairwise_cons.2 ⟨fun f hf => ?_, order⟩
        rcases List.mem_cons.1 hf with rfl | later
        · exact before
        · have := first f later
          simp only [flipBefore] at *
          omega
      case isFalse after =>
        refine List.pairwise_cons.2 ⟨fun f hf => ?_, ih tail⟩
        rcases (mem_toggleFlip tail f).1 hf with ⟨rfl, -⟩ | ⟨-, mem⟩
        · simp only [flipBefore]
          omega
        · exact first f mem

theorem StoredRecord.InOrder.flip {r : StoredRecord} (order : r.InOrder) (word bit : Nat) :
    (r.flip word bit).InOrder := pairwise_toggleFlip order

namespace SlotSound

variable {slot : TypeSlot}

protected theorem reset : SlotSound .reset where
  absent := fun _ => ⟨rfl, rfl⟩
  active := by decide
  pending := by decide
  draining := by decide
  faults := by decide
  stored := fun r stored => by simp [TypeSlot.reset] at stored

theorem exists_active (sound : SlotSound slot) (present : slot.state ≠ .absent) :
    ∃ r, slot.active = some r :=
  Option.ne_none_iff_exists'.1 (mt sound.active.2 present)

theorem exists_waiting (sound : SlotSound slot) (draining : slot.state = .draining) :
    ∃ r, slot.waiting = some r := Option.isSome_iff_exists.1 (sound.pending.1 draining)

theorem waiting_eq_none (sound : SlotSound slot) (steady : slot.state ≠ .draining) :
    slot.waiting = none := by
  simpa using mt sound.pending.2 steady

/-- A slot with the same state and entries, whose users are there where it is DRAINING and not where
it is ABSENT. -/
theorem withUsers (sound : SlotSound slot) {users : Nat} (absent : slot.state = .absent → users = 0)
    (draining : slot.state = .draining → 1 ≤ users) : SlotSound { slot with users := users } where
  absent := fun state => ⟨absent state, (sound.absent state).2⟩
  active := sound.active
  pending := sound.pending
  draining := draining
  faults := sound.faults
  stored := sound.stored

theorem reread (sound : SlotSound slot) : SlotSound slot.reread := by
  unfold TypeSlot.reread
  cases active : slot.active with
  | none => exact sound
  | some r =>
    have present : slot.state ≠ .absent := fun state => by simp [sound.active.1 state] at active
    have order : r.InOrder := sound.stored r (.inl active)
    refine ⟨fun state => absurd state present, ?_, sound.pending, sound.draining, addFaults_le ..,
      ?_⟩
    · simp [TypeSlot.afterRead, present]
    · rintro q (h | h)
      · cases h; exact order.corrected
      · exact sound.stored q (.inr h)

theorem broken (sound : SlotSound slot) (present : slot.state ≠ .absent)
    (steady : slot.state ≠ .draining) : SlotSound { slot with state := .broken } where
  absent := nofun
  active := by simpa using mt sound.active.2 present
  pending := by simp [sound.waiting_eq_none steady]
  draining := nofun
  faults := sound.faults
  stored := sound.stored

/-- The pending record of a DRAINING type installed, or the type BROKEN (R29, R36). -/
theorem install (sound : SlotSound slot) (draining : slot.state = .draining) (users : Nat) :
    SlotSound ({ slot with users := users } : TypeSlot).install := by
  obtain ⟨p, waiting⟩ := sound.exists_waiting draining
  obtain ⟨a, active⟩ := sound.exists_active (by simp [draining])
  have order : p.InOrder := sound.stored p (.inr waiting)
  obtain ⟨none_waits, -⟩ | ⟨q, waits, -, h⟩ | ⟨q, waits, -, h⟩ :=
    ({ slot with users := users } : TypeSlot).install_cases
  · simp [waiting] at none_waits
  · obtain rfl : p = q := by simpa [waiting] using waits
    rw [h]
    refine ⟨nofun, by simp [TypeSlot.installed], by simp [TypeSlot.installed], nofun,
      addFaults_le .., ?_⟩
    rintro r (h | h) <;> cases h
    exact order.corrected
  · rw [h]
    refine ⟨nofun, by simp [TypeSlot.installFailed, active], by simp [TypeSlot.installFailed], nofun,
      addFaults_le .., ?_⟩
    rintro r (h | h)
    · exact sound.stored r (.inl h)
    · cases h

theorem flip (sound : SlotSound slot) (which : RecordSlot) (word bit : Nat) :
    SlotSound (slot.flip which word bit) := by
  have kept (o : Option StoredRecord) (order : ∀ r, o = some r → r.InOrder) :
      ∀ r, (o.map (·.flip word bit)) = some r → r.InOrder := by
    intro r hr
    obtain ⟨q, hq, rfl⟩ := Option.map_eq_some_iff.1 hr
    exact (order q hq).flip word bit
  cases which with
  | active =>
    refine ⟨sound.absent, by simpa [TypeSlot.flip] using sound.active, sound.pending,
      sound.draining, sound.faults, ?_⟩
    rintro r (h | h)
    · exact kept slot.active (fun q hq => sound.stored q (.inl hq)) r h
    · exact sound.stored r (.inr h)
  | pending =>
    refine ⟨sound.absent, sound.active, by simpa [TypeSlot.flip] using sound.pending,
      sound.draining, sound.faults, ?_⟩
    rintro r (h | h)
    · exact sound.stored r (.inl h)
    · exact kept slot.waiting (fun q hq => sound.stored q (.inr hq)) r h

theorem place (sound : SlotSound slot) (r : TypeRecord) : SlotSound (slot.place r) := by
  have fresh (q : StoredRecord) (h : some (.fresh r) = some q) : q.InOrder := by
    cases h; exact StoredRecord.inOrder_fresh r
  obtain ⟨draining, h⟩ | ⟨-, present, used, h⟩ | ⟨steady, -, h⟩ := slot.place_cases r <;> rw [h]
  · exact ⟨sound.absent, sound.active, by simp [draining], sound.draining, sound.faults,
      fun q hq => hq.elim (fun hq => sound.stored q (.inl hq)) (fresh q)⟩
  · exact ⟨nofun, by simpa using mt sound.active.2 present, by simp, fun _ => used, sound.faults,
      fun q hq => hq.elim (fun hq => sound.stored q (.inl hq)) (fresh q)⟩
  · exact ⟨nofun, by simp, by simp [sound.waiting_eq_none steady], nofun, Nat.zero_le _,
      fun q hq => hq.elim (fresh q) (fun hq => sound.stored q (.inr hq))⟩

/-- A DRAINING type read where its active record is damaged: repaired, or BROKEN (R35). -/
theorem repair (sound : SlotSound slot) (draining : slot.state = .draining) :
    SlotSound slot.repair ∧ slot.repair.state ≠ .absent ∧
      (slot.repair.state = .draining → slot.repair.active.isSome) := by
  obtain ⟨p, waiting⟩ := sound.exists_waiting draining
  obtain ⟨a, active⟩ := sound.exists_active (by simp [draining])
  have order : p.InOrder := sound.stored p (.inr waiting)
  unfold TypeSlot.repair
  simp only [waiting]
  split
  · refine ⟨⟨by simp [draining], by simp [draining], by simp [draining], sound.draining,
      addFaults_le .., ?_⟩, by simp [draining], fun _ => rfl⟩
    rintro r (h | h) <;> cases h <;> exact order.corrected
  · refine ⟨⟨nofun, by simp [active], by simp, nofun, addFaults_le .., ?_⟩, nofun, nofun⟩
    rintro r (h | h)
    · exact sound.stored r (.inl h)
    · cases h

/-- A warm reset leaves no users, and no type DRAINING (R41). -/
theorem warmReset (sound : SlotSound slot) :
    SlotSound slot.warmReset ∧ slot.warmReset.users = 0 ∧ slot.warmReset.state ≠ .draining := by
  unfold TypeSlot.warmReset
  simp only
  split
  case isTrue draining =>
    obtain ⟨p, waiting⟩ := sound.exists_waiting draining
    refine ⟨sound.install draining 0, ?_⟩
    obtain ⟨none_waits, -⟩ | ⟨q, -, -, h⟩ | ⟨q, -, -, h⟩ :=
      ({ slot with users := 0 } : TypeSlot).install_cases
    · simp [waiting] at none_waits
    · rw [h]; exact ⟨rfl, nofun⟩
    · rw [h]; exact ⟨rfl, nofun⟩
  case isFalse steady =>
    exact ⟨sound.withUsers (fun _ => rfl) fun state => absurd state steady, rfl, steady⟩

end SlotSound

end Sys2Proof.Machine

end

section
/-! The ranges of the parts, continued: sites, front ends, heads and links. -/

namespace Sys2Proof.Machine

/-! ### Sites (R48, R51, R55, R60) -/

namespace SiteSound

variable {e : SiteEntry}

/-- A site granted to a head: it was LOADED, or restrike-eligible (R56). -/
theorem claimFor (sound : SiteSound e) (h : Head)
    (ready : e.state = .loaded ∨ e.state = .rejected ∧ e.last = some (.abort .depthLimit) ∧
      e.attempts < 3) : SiteSound (e.claimFor h) := by
  have fresh := sound.fresh
  rcases ready with loaded | ⟨rejected, last, few⟩
  · have unused := fresh (.inr loaded)
    refine ⟨sound.place, sound.keepOut, sound.distinct, sound.attempts, ?_, ?_, ?_, fun _ _ => unused,
      ?_⟩ <;> simp [SiteEntry.claimFor, loaded, SiteState.asGrant, unused]
  · refine ⟨sound.place, sound.keepOut, sound.distinct, sound.attempts, ?_, ?_, ?_, ?_,
      fun _ _ => ⟨few, last⟩⟩ <;> simp [SiteEntry.claimFor, rejected, SiteState.asGrant]
    omega

/-- A site whose claim or stroke ends without a counted attempt returns to its state at grant (R57,
R59). -/
theorem returned (sound : SiteSound e) {h : Head} {g : GrantFrom}
    (held : e.state = .claimed h g ∨ e.state = .pressing h g) :
    SiteSound { e with state := g.toState } := by
  cases g with
  | loaded =>
    have unused := sound.first h held
    exact ⟨sound.place, sound.keepOut, sound.distinct, sound.attempts, by simp [unused],
      fun _ => unused, nofun, nofun, nofun⟩
  | rejected =>
    have few := (sound.again h held).1
    exact ⟨sound.place, sound.keepOut, sound.distinct, sound.attempts, fun spent => absurd spent few.ne, nofun,
      nofun, nofun, nofun⟩

theorem unclaim (sound : SiteSound e) : SiteSound e.unclaim := by
  unfold SiteEntry.unclaim
  split
  · exact sound.returned (.inl ‹_›)
  · exact sound

theorem press (sound : SiteSound e) : SiteSound e.press := by
  unfold SiteEntry.press
  split
  case h_1 h g claimed =>
    have spent := sound.spent
    refine ⟨sound.place, sound.keepOut, sound.distinct, sound.attempts, ?_, nofun, nofun, ?_, ?_⟩
    · simpa [claimed] using spent
    · rintro h' (held | held) <;> cases held
      exact sound.first h (.inl claimed)
    · rintro h' (held | held) <;> cases held
      exact sound.again h (.inl claimed)
  case h_2 => exact sound

theorem unload (sound : SiteSound e) : SiteSound e.unload :=
  ⟨sound.place, sound.keepOut, sound.distinct, Nat.zero_le _, nofun, fun _ => ⟨rfl, rfl⟩, nofun, nofun,
    nofun⟩

theorem load (sound : SiteSound e) (empty : e.state = .empty) :
    SiteSound { e with state := .loaded } := by
  have unused := sound.fresh (.inl empty)
  exact ⟨sound.place, sound.keepOut, sound.distinct, sound.attempts, by simp [unused],
    fun _ => unused, nofun, nofun, nofun⟩

/-- A counted attempt that fails, of fewer than three before (R59, R60). -/
theorem fail (sound : SiteSound e) (few : e.attempts < 3) (last : LastOutcome) :
    SiteSound (e.fail last) := by
  unfold SiteEntry.fail
  refine ⟨sound.place, sound.keepOut, sound.distinct, few, ?_, ?_, ?_, ?_, ?_⟩
  · intro spent
    simp only at spent
    simp [spent]
  all_goals
    split
    · simp
    · simp
      try omega

theorem apply (sound : SiteSound e) (o : Ending) : SiteSound (e.apply o) := by
  by_cases pressing : ∃ h g, e.state = .pressing h g
  · obtain ⟨h, g, pressing⟩ := pressing
    have few : e.attempts < 3 := by
      cases g with
      | loaded => have := sound.first h (.inr pressing); omega
      | rejected => exact (sound.again h (.inr pressing)).1
    cases o with
    | pass depth =>
      rw [SiteEntry.apply, pressing]
      exact ⟨sound.place, sound.keepOut, sound.distinct, few, fun _ => .inl ⟨depth, rfl⟩,
        by simp, nofun, nofun, nofun⟩
    | reject failures =>
      rw [SiteEntry.apply_reject pressing]
      exact sound.fail few _
    | abort cause contact =>
      rw [SiteEntry.apply_abort pressing]
      split
      · exact sound.fail few _
      · exact sound.returned (.inr pressing)
  · rw [SiteEntry.apply_of_not_pressing o fun h g held => pressing ⟨h, g, held⟩]
    exact sound

end SiteSound

theorem at8_lt (p : List Byte) (i : Nat) : at8 p i < 256 := BitVec.isLt _

theorem at16_le (p : List Byte) (i : Nat) : at16 p i ≤ 65535 := by
  have high := at8_lt p i
  have low := at8_lt p (i + 1)
  unfold at16
  omega

theorem definedSite_sound {zs : List (Fin 32)} (few : 1 ≤ zs.length ∧ zs.length ≤ 6)
    (once : zs.Nodup) {x y : Nat} (fits : x ≤ 65535 ∧ y ≤ 65535) (t : Fin 48) :
    SiteSound (definedSite t x y zs) where
  place := fits
  keepOut := by simpa [definedSite, (keepOutOf_perm zs).length_eq] using few
  distinct := (keepOutOf_perm zs).nodup_iff.2 once
  attempts := Nat.zero_le _
  spent := nofun
  fresh := fun _ => ⟨rfl, rfl⟩
  locked := nofun
  first := nofun
  again := nofun

/-! ### Front ends (section 1) -/

theorem stabilitySamples_pos (p : Period) (f : FrontEnd) : 0 < stabilitySamples p f := by
  have least := (samplesOf_least p f.stability.millis).1
  have positive : 0 < f.stability.millis := by cases f.stability <;> decide
  have micros := p.micros_pos
  by_contra none_left
  rw [Nat.eq_zero_of_not_pos none_left |> fun h => (h : samplesOf p f.stability.millis = 0)] at least
  omega

/-- The ranges of a tare tracker with `ns` samples of stability time (section 1.6). -/
structure TareSound (ns : Nat) (t : Tare) : Prop where
  value : t.value.natAbs ≤ 50000
  run : t.run ≤ ns
  settling : t.state = .settling ↔ t.run < ns

theorem TareSound.restart {ns : Nat} {t : Tare} (sound : TareSound ns t) {ns' : Nat}
    (pos : 0 < ns') : TareSound ns' t.restart where
  value := sound.value
  run := Nat.zero_le _
  settling := by simp [Tare.restart, pos]

/-- The decision leaves SETTLING, and T within the tare limit (R15). -/
theorem Tare.adopt_range {t : Tare} (value : t.value.natAbs ≤ 50000) (hysteresis : Nat) :
    (t.adopt hysteresis).value.natAbs ≤ 50000 ∧ (t.adopt hysteresis).state ≠ .settling ∧
      (t.adopt hysteresis).run = t.run := by
  unfold Tare.adopt Config.tareLimit
  split
  · exact ⟨value, by simp, rfl⟩
  · split
    · exact ⟨by simp only; omega, by simp, rfl⟩
    · exact ⟨value, by simp, rfl⟩

theorem TareSound.step {ns : Nat} {t : Tare} (sound : TareSound ns t) (pos : 0 < ns)
    (hysteresis : Nat) (g : Int) : TareSound ns (t.step hysteresis ns g) := by
  unfold Tare.step
  split
  · exact ⟨sound.value, Nat.zero_le _, by simp [pos]⟩
  · split
    case isTrue below =>
      split
      case isTrue reached =>
        obtain ⟨value, state, run⟩ := Tare.adopt_range (t := { t with run := ns }) sound.value hysteresis
        exact ⟨value, run.le, by simp [state, run]⟩
      case isFalse early =>
        exact ⟨sound.value, below, by have := sound.settling; simp only; rw [this]; omega⟩
    case isFalse => exact sound

theorem cornerAfter_sound {c : Corner} (sound : CornerSound c) (limit : Nat) (v : Conversions) :
    CornerSound (cornerAfter limit c v) where
  gain := sound.gain
  run := by
    simp only [cornerAfter]
    split
    · exact Nat.min_le_right ..
    · exact Nat.zero_le _

namespace FrontSound

variable {p : Period} {f : FrontEnd}

theorem tareSound (sound : FrontSound p f) : TareSound (stabilitySamples p f) f.tare :=
  ⟨sound.tare, sound.run, sound.settling⟩

/-- A front end with another tare tracker, its configuration and its position as they were. -/
theorem withTare (sound : FrontSound p f) {p' : Period} {t : Tare}
    (tare : TareSound (stabilitySamples p' f) t) : FrontSound p' { f with tare := t } :=
  { sound with tare := tare.value, run := tare.run, settling := tare.settling }

theorem restartTare (sound : FrontSound p f) (p' : Period) : FrontSound p' f.restartTare :=
  sound.withTare (sound.tareSound.restart (stabilitySamples_pos p' f))

theorem track (sound : FrontSound p f) (st : HeadState) (r : SampleRecord) :
    TareSound (stabilitySamples p f) (f.track p st r) := by
  have pos := stabilitySamples_pos p f
  unfold FrontEnd.track
  split
  · exact sound.tareSound
  · split
    · exact sound.tareSound.restart pos
    · exact sound.tareSound.step pos _ _

theorem complete (sound : FrontSound p f) (st : HeadState) (conv : PerCorner Conversions)
    (r : SampleRecord) : FrontSound p (f.complete p st conv r) :=
  { sound.withTare (sound.track st r) with
    corner0 := cornerAfter_sound sound.corner0 _ _
    corner1 := cornerAfter_sound sound.corner1 _ _
    corner2 := cornerAfter_sound sound.corner2 _ _
    corner3 := cornerAfter_sound sound.corner3 _ _
    held := by
      simp only [FrontEnd.complete, FrontEnd.countHeld]
      split
      · exact Nat.min_le_right ..
      · exact sound.held }

theorem home (sound : FrontSound p f) : FrontSound p f.home :=
  { sound with position := by simp [FrontEnd.home, Config.positionMin, Config.positionMax] }

theorem observe (sound : FrontSound p f) (seen : Phase) : FrontSound p (f.observe seen) := by
  have range := sound.position
  have seen_alone : FrontSound p { f with phase := seen } := { sound with }
  have illegal : FrontSound p ({ f with phase := seen } : FrontEnd).illegal := { sound with }
  unfold FrontEnd.observe
  simp only
  split
  · exact seen_alone
  · split
    · split
      · exact { sound with position := ⟨by simp only; omega, by simp only; omega⟩ }
      · exact illegal
    · split
      · split
        · exact { sound with position := ⟨by simp only; omega, by simp only; omega⟩ }
        · exact illegal
      · exact illegal

theorem configure (sound : FrontSound p f) {gains : PerCorner Nat} {noise : Nat}
    (hg : ∀ g ∈ gains.toList, g ≤ 65535) (hn : noise ≤ 65535) (hysteresis : Nat)
    (stability : StabilityTime) : FrontSound p (f.configure gains noise hysteresis stability) := by
  simp only [PerCorner.toList, List.forall_mem_cons] at hg
  obtain ⟨h0, h1, h2, h3, -⟩ := hg
  have ready := sound.tareSound.restart (stabilitySamples_pos p (f.configure gains noise hysteresis
    stability))
  have gain (g : Nat) (hg : g ≤ 65535) : 1 ≤ max g 1 ∧ max g 1 ≤ 65535 := by omega
  exact { corner0 := ⟨gain _ h0, sound.corner0.run⟩, corner1 := ⟨gain _ h1, sound.corner1.run⟩
          corner2 := ⟨gain _ h2, sound.corner2.run⟩, corner3 := ⟨gain _ h3, sound.corner3.run⟩
          noise := hn, hysteresis := Nat.min_le_right .., tare := ready.value, run := ready.run
          settling := ready.settling, position := sound.position, held := sound.held }

theorem warmReset (sound : FrontSound p f) : FrontSound p f.warmReset :=
  { sound with
    corner0 := ⟨sound.corner0.gain, Nat.zero_le _⟩, corner1 := ⟨sound.corner1.gain, Nat.zero_le _⟩
    corner2 := ⟨sound.corner2.gain, Nat.zero_le _⟩, corner3 := ⟨sound.corner3.gain, Nat.zero_le _⟩
    held := Nat.zero_le _ }

protected theorem reset (h : Head) : FrontSound .us1000 (.reset h) := by
  have corner : CornerSound .reset := ⟨by decide, by decide⟩
  exact ⟨corner, corner, corner, corner, by simp [FrontEnd.reset], by simp [FrontEnd.reset],
    by simp [FrontEnd.reset, Tare.reset], Nat.zero_le _,
    by simp [FrontEnd.reset, Tare.reset, stabilitySamples_pos], by simp [FrontEnd.reset]; decide,
    Nat.zero_le _⟩

end FrontSound

/-! ### Causes (R132, R135) -/

/-- The causes in the order of their codes. -/
def allCauses : List Cause :=
  [.overforce, .overrange, .encoder, .tilt, .overtravel, .depthLimit, .noContact, .stalled,
    .sensorNoise, .strokeTime, .estop, .linkDown, .boardAbort, .headStop, .supervisorReset]

theorem Cause.code_injective {c d : Cause} (same : c.code = d.code) : c = d := by
  have place (x : Cause) : allCauses[x.code - 1]? = some x := by cases x <;> rfl
  exact Option.some.inj ((place c).symm.trans ((congrArg (allCauses[· - 1]?) same).trans (place d)))

theorem mem_insertCause (c d : Cause) (ds : List Cause) : d ∈ insertCause c ds ↔ d = c ∨ d ∈ ds := by
  induction ds with
  | nil => simp [insertCause]
  | cons x xs ih =>
    unfold insertCause
    split
    · simp
    · split
      case isTrue same => subst same; simp
      case isFalse => rw [List.mem_cons, ih, List.mem_cons, or_left_comm]

theorem pairwise_insertCause {c : Cause} {ds : List Cause}
    (order : ds.Pairwise fun a b => a.code < b.code) :
    (insertCause c ds).Pairwise fun a b => a.code < b.code := by
  induction ds with
  | nil => exact List.pairwise_singleton ..
  | cons x xs ih =>
    obtain ⟨first, others⟩ := List.pairwise_cons.1 order
    unfold insertCause
    split
    case isTrue lower =>
      refine List.pairwise_cons.2 ⟨fun b hb => ?_, order⟩
      rcases List.mem_cons.1 hb with rfl | later
      · exact lower
      · exact lower.trans (first b later)
    case isFalse upper =>
      split
      case isTrue => exact order
      case isFalse other =>
        refine List.pairwise_cons.2 ⟨fun b hb => ?_, ih others⟩
        rcases (mem_insertCause ..).1 hb with rfl | later
        · exact lt_of_le_of_ne (not_lt.1 upper) fun same => other (Cause.code_injective same.symm)
        · exact first b later

theorem mem_join_further (a : AbortItems) (c d : Cause) :
    d ∈ (a.join c).further ↔ d ∈ a.further ∨ (d = c ∧ c ≠ a.primary) := by
  unfold AbortItems.join
  split
  case isTrue same => simp [same]
  case isFalse other => simp [mem_insertCause, other, or_comm]

@[simp] theorem AbortItems.join_primary (a : AbortItems) (c : Cause) :
    (a.join c).primary = a.primary := by
  unfold AbortItems.join; split <;> rfl

@[simp] theorem AbortItems.join_due (a : AbortItems) (c : Cause) : (a.join c).due = a.due := by
  unfold AbortItems.join; split <;> rfl

@[simp] theorem AbortItems.join_contact (a : AbortItems) (c : Cause) :
    (a.join c).contact = a.contact := by
  unfold AbortItems.join; split <;> rfl

theorem AbortSound.join {a : AbortItems} (sound : AbortSound a) {c : Cause} (code : c.code ≤ 13) :
    AbortSound (a.join c) where
  order := by
    unfold AbortItems.join
    split
    · exact sound.order
    · exact pairwise_insertCause sound.order
  primary := by
    rw [AbortItems.join_primary, mem_join_further, not_or]
    exact ⟨sound.primary, fun ⟨same, other⟩ => other same.symm⟩
  codes := fun d hd => by
    rcases (mem_join_further ..).1 hd with mem | ⟨rfl, -⟩
    · exact sound.codes d mem
    · exact code
  due := by simpa using sound.due

/-- Several causes join the further-cause set: those not the primary one, and those there (R138). -/
theorem mem_joinAll_further (a : AbortItems) (cs : List Cause) (d : Cause) :
    d ∈ (cs.foldl AbortItems.join a).further ↔ d ∈ a.further ∨ (d ∈ cs ∧ d ≠ a.primary) := by
  induction cs generalizing a with
  | nil => simp
  | cons c cs ih =>
    rw [List.foldl_cons, ih, mem_join_further, AbortItems.join_primary, List.mem_cons, or_assoc,
      or_and_right]
    have same : d = c ∧ c ≠ a.primary ↔ d = c ∧ d ≠ a.primary :=
      and_congr_right fun h => by rw [h]
    rw [same]

/-- Joining touches the further-cause set alone. -/
theorem joinAll_eq (a : AbortItems) (cs : List Cause) :
    cs.foldl AbortItems.join a = { a with further := (cs.foldl AbortItems.join a).further } := by
  induction cs generalizing a with
  | nil => rfl
  | cons c cs ih =>
    have one : a.join c = { a with further := (a.join c).further } := by
      unfold AbortItems.join; split <;> rfl
    rw [List.foldl_cons, ih, one]

theorem AbortSound.joinAll {a : AbortItems} (sound : AbortSound a) {cs : List Cause}
    (codes : ∀ c ∈ cs, c.code ≤ 13) : AbortSound (cs.foldl AbortItems.join a) := by
  induction cs generalizing a with
  | nil => exact sound
  | cons c cs ih =>
    rw [List.forall_mem_cons] at codes
    exact ih (sound.join codes.1) codes.2

theorem causeIf_sublist (c : Cause) (found : Bool) : (causeIf c found).Sublist [c] := by
  cases found with
  | true => exact .refl _
  | false => exact List.nil_sublist _

theorem sampleCauses_sublist (r : TypeRecord) (rec : SampleRecord) :
    (sampleCauses r rec).Sublist [.overforce, .overrange, .encoder, .tilt] :=
  (((causeIf_sublist ..).append (causeIf_sublist ..)).append (causeIf_sublist ..)).append
    (causeIf_sublist ..)

/-- The causes found come from the table, in its order (R132). -/
theorem strokeCauses_sublist (st : HeadState) (r : TypeRecord) (restrike : Bool) (k : Stroke)
    (rec : SampleRecord) : (strokeCauses st r restrike k rec).Sublist
      [.overforce, .overrange, .encoder, .tilt, .overtravel, .depthLimit, .noContact, .stalled,
        .sensorNoise, .strokeTime] :=
  ((((((sampleCauses_sublist ..).append (causeIf_sublist ..)).append (causeIf_sublist ..)).append
    (causeIf_sublist ..)).append (causeIf_sublist ..)).append (causeIf_sublist ..)).append
    (causeIf_sublist ..)

theorem strokeCauses_pairwise (st : HeadState) (r : TypeRecord) (restrike : Bool) (k : Stroke)
    (rec : SampleRecord) :
    (strokeCauses st r restrike k rec).Pairwise fun c d => c.code < d.code :=
  List.Pairwise.sublist (strokeCauses_sublist ..) (by decide)

theorem strokeCauses_code_le {st : HeadState} {r : TypeRecord} {restrike : Bool} {k : Stroke}
    {rec : SampleRecord} : ∀ c ∈ strokeCauses st r restrike k rec, c.code ≤ 10 := by
  have table : ∀ c ∈ [Cause.overforce, .overrange, .encoder, .tilt, .overtravel, .depthLimit,
      .noContact, .stalled, .sensorNoise, .strokeTime], c.code ≤ 10 := by decide
  exact fun c hc => table c ((strokeCauses_sublist ..).subset hc)

theorem sampleCauses_code_le {r : TypeRecord} {rec : SampleRecord} :
    ∀ c ∈ sampleCauses r rec, c.code ≤ 13 := by
  have table : ∀ c ∈ [Cause.overforce, .overrange, .encoder, .tilt], c.code ≤ 13 := by decide
  exact fun c hc => table c ((sampleCauses_sublist ..).subset hc)

/-! ### Heads (section 5.1) -/

namespace HeadSound

variable {m : Monitor}

/-- A head whose claim has been granted (R73). -/
theorem granted (c : Claim) (now : Nat) (w : WorkingCopy) : HeadSound { Monitor.idle with
    state := .armed, claim := some c, grantTime := some now, slot := true, copy := some w } where
  permit := rfl
  timer := by simp
  unclaimed := by simp
  claimed := fun _ _ => ⟨rfl, rfl⟩
  stroke := by simp [Monitor.idle, HeadState.inStroke, HeadState.unacknowledged]
  reserved := fun _ => rfl
  judged := nofun
  running := fun _ stroke => nomatch stroke
  halted := fun _ stroke => nomatch stroke

/-- An ARMED head whose stroke starts (R91). -/
theorem started (sound : HeadSound m) (armed : m.state = .armed) {k : Stroke} (fresh : k.abort = none) :
    HeadSound { m with state := .approach, permit := true, grantTime := none, stroke := some k } where
  permit := rfl
  timer := by simp
  unclaimed := by simp
  claimed := fun _ _ => sound.claimed (by simp [armed]) (by simp [armed])
  stroke := by simp [HeadState.inStroke]
  reserved := fun _ => sound.reserved (by rw [armed]; rfl)
  judged := nofun
  running := fun q hq _ => by cases hq; exact fresh
  halted := fun _ _ halted => nomatch halted

theorem not_idle_of_inStroke {st : HeadState} (stroke : st.inStroke = true) :
    st ≠ .idle ∧ st ≠ .waiting ∧ st ≠ .armed ∧ st ≠ .halted ∧ st ≠ .retract := by
  cases st <;> simp_all [HeadState.inStroke]

theorem exists_stroke (sound : HeadSound m) (inStroke : m.state.inStroke = true) :
    ∃ c w k, m.claim = some c ∧ m.copy = some w ∧ m.stroke = some k ∧ k.abort = none := by
  obtain ⟨idle, waiting, -, halted, -⟩ := not_idle_of_inStroke inStroke
  obtain ⟨claimed, copied⟩ := sound.claimed idle waiting
  obtain ⟨c, claim⟩ := Option.isSome_iff_exists.1 claimed
  obtain ⟨w, copy⟩ := Option.isSome_iff_exists.1 copied
  obtain ⟨k, stroke⟩ := Option.isSome_iff_exists.1 (sound.stroke.2 (.inl inStroke))
  exact ⟨c, w, k, claim, copy, stroke, sound.running k stroke halted⟩

/-- A head in a stroke state whose stroke goes on (R93). -/
theorem continued (sound : HeadSound m) (inStroke : m.state.inStroke = true) {st : HeadState}
    (still : st.inStroke = true) {k : Stroke} (runs : k.abort = none) :
    HeadSound { m with state := st, stroke := some k } := by
  obtain ⟨-, -, armed, -, -⟩ := not_idle_of_inStroke inStroke
  obtain ⟨idle', waiting', armed', halted', retract'⟩ := not_idle_of_inStroke still
  obtain ⟨c, w, -, claim, copy, -⟩ := sound.exists_stroke inStroke
  exact {
    permit := by simp only [sound.permit, inStroke, still]
    timer := by simp [sound.timer, armed, armed']
    unclaimed := fun h => absurd h (not_or.2 ⟨idle', waiting'⟩)
    claimed := fun _ _ => ⟨by simp [claim], by simp [copy]⟩
    stroke := by simp [still]
    reserved := fun _ => sound.reserved (by simp [HeadState.active, inStroke])
    judged := fun h => absurd h retract'
    running := fun q hq _ => by cases hq; exact runs
    halted := fun _ _ h => absurd h halted' }

/-- A stroke aborted (R136): the head is HALTED with sound abort items. -/
theorem halt (sound : HeadSound m) (inStroke : m.state.inStroke = true) (h : Head) {c : Claim}
    {w : WorkingCopy} (claim : m.claim = some c) (copy : m.copy = some w) (k : Stroke) (held : Nat)
    {cause : Cause} {further : List Cause}
    (order : (cause :: further).Pairwise fun a b => a.code < b.code)
    (codes : ∀ d ∈ further, d.code ≤ 13) :
    HeadSound (m.halt h c w k held cause further) := by
  obtain ⟨first, others⟩ := List.pairwise_cons.1 order
  obtain ⟨-, -, armed, -, -⟩ := not_idle_of_inStroke inStroke
  exact {
    permit := rfl
    timer := by simp [Monitor.halt, sound.timer, armed]
    unclaimed := by simp [Monitor.halt]
    claimed := fun _ _ => ⟨by simp [Monitor.halt, claim], by simp [Monitor.halt, copy]⟩
    stroke := by simp [Monitor.halt, HeadState.unacknowledged]
    reserved := nofun
    judged := nofun
    running := fun _ _ h => absurd rfl h
    halted := fun q hq _ => by
      cases hq
      refine ⟨_, rfl, others, fun mem => (first _ mem).ne rfl, codes, ?_⟩
      simp only [abortItems]
      split <;> simp_all }

/-- A stroke judged (R100). -/
theorem retracted (sound : HeadSound m) (inStroke : m.state.inStroke = true) {k : Stroke}
    (runs : k.abort = none) : HeadSound { m with
      state := .retract, permit := false, slot := false, stroke := some k } := by
  obtain ⟨-, -, armed, -, -⟩ := not_idle_of_inStroke inStroke
  obtain ⟨c, w, -, claim, copy, -⟩ := sound.exists_stroke inStroke
  exact {
    permit := rfl
    timer := by simp [sound.timer, armed]
    unclaimed := by simp
    claimed := fun _ _ => ⟨by simp [claim], by simp [copy]⟩
    stroke := by simp [HeadState.unacknowledged]
    reserved := fun active => by simp [HeadState.active, HeadState.inStroke] at active
    judged := fun _ => rfl
    running := fun q hq _ => by cases hq; exact runs
    halted := fun _ _ halted => nomatch halted }

end HeadSound

/-- All that joining causes can do to a head: to the further-cause set of a HALTED one, or nothing
(R138, R139). -/
theorem Monitor.joinCauses_cases (m : Monitor) (cs : List Cause) :
    (∃ k, m.state = .halted ∧ m.stroke = some k ∧ m.joinCauses cs = { m with
      stroke := some { k with abort := k.abort.map fun a => cs.foldl AbortItems.join a } }) ∨
    (m.state ≠ .halted ∨ m.stroke = none) ∧ m.joinCauses cs = m := by
  unfold Monitor.joinCauses
  split
  case h_1 k halted stroke => exact .inl ⟨k, halted, stroke, rfl⟩
  case h_2 other =>
    refine .inr ⟨?_, rfl⟩
    by_contra both
    rw [not_or, not_not] at both
    obtain ⟨k, stroke⟩ := Option.ne_none_iff_exists'.1 both.2
    exact other k both.1 stroke

theorem HeadSound.joinCauses {m : Monitor} (sound : HeadSound m) {cs : List Cause}
    (codes : ∀ c ∈ cs, c.code ≤ 13) : HeadSound (m.joinCauses cs) := by
  obtain ⟨k, halted, stroke, joined⟩ | ⟨-, kept⟩ := m.joinCauses_cases cs
  · obtain ⟨a, abort, items⟩ := sound.halted k stroke halted
    rw [joined]
    exact { sound with
      unclaimed := fun h => by simp [halted] at h
      stroke := by simp [halted, HeadState.unacknowledged]
      running := fun _ _ h => absurd halted h
      halted := fun q hq _ => by
        cases hq
        exact ⟨_, by rw [abort, Option.map_some], items.joinAll codes⟩ }
  · rwa [kept]

/-- A head that is not ARMED or in a stroke without its reservation (R146). -/
theorem HeadSound.withoutSlot {m : Monitor} (sound : HeadSound m) (ended : m.state.active = false) :
    HeadSound { m with slot := false } :=
  { sound with
    unclaimed := fun h => by
      obtain ⟨claim, copy, stroke, -⟩ := sound.unclaimed h
      exact ⟨claim, copy, stroke, rfl⟩
    reserved := fun active => by simp [ended] at active
    judged := fun _ => rfl }

/-- What a sample makes of a stroke state is one, and it aborts nothing (R93). -/
theorem Stroke.progress_runs (k : Stroke) {st : HeadState} (inStroke : st.inStroke = true)
    (r : TypeRecord) (restrike : Bool) (rec : SampleRecord) :
    (k.progress st r restrike rec).state.inStroke = true ∧
      (k.progress st r restrike rec).stroke.abort = k.abort := by
  have engage (k' : Stroke) (confirming : Bool) (pc : Int) :
      (k'.engage r restrike confirming pc rec).state.inStroke = true ∧
        (k'.engage r restrike confirming pc rec).stroke.abort = k'.abort := by
    unfold Stroke.engage
    simp only
    split <;> exact ⟨rfl, rfl⟩
  rcases (HeadState.inStroke_iff st).1 inStroke with rfl | rfl | rfl
  · simp only [Stroke.progress, Stroke.approach]
    split
    · split
      · exact engage ..
      · exact ⟨rfl, rfl⟩
    · exact ⟨rfl, rfl⟩
  · exact engage ..
  · exact ⟨rfl, rfl⟩

/-! ### Links (section 9) -/

theorem LinkSound.reset : LinkSound .reset :=
  ⟨Nat.zero_le _, Nat.zero_le _, fun _ => ⟨rfl, rfl, rfl, rfl, rfl⟩⟩

end Sys2Proof.Machine

end

section
/-! What every command keeps: the operations that the commands are made of, each in the states in which a
command makes it, and that a property kept by all of them is kept by every command. The statements on
what every step keeps are proved through it. -/

namespace Sys2Proof.Machine

/-- A property of states that each operation keeps in the states in which a command makes it. -/
structure Kept (P : State → Prop) : Prop where
  link : ∀ {s} l k, P s → (LinkSound (s.link l) → LinkSound k) → P (s.setLink l k)
  front : ∀ {s} h f, P s → (FrontSound s.period (s.front h) → FrontSound s.period f) →
    P (s.setFront h f)
  notBefore : ∀ {s} time, P s → P (s.notBefore time)
  records : ∀ {s} rs, P s → P { s with records := rs }
  pass : ∀ {s}, P s → P (s.pass none)
  endArmed : ∀ {s} h, P s → (s.monitor h).state = .armed → P (s.endArmed h)
  leaveQueue : ∀ {s} h, P s → (s.monitor h).state = .waiting → P ((s.leaveQueue h).toIdle h)
  claimWaiting : ∀ {s} h c, P s → s.board.state = .isOpen → s.estop = false →
    (s.monitor h).state = .idle →
    P ((s.joinQueue h c).setMonitor h { s.monitor h with state := .waiting })
  claimAtOnce : ∀ {s} h c, P s → s.board.state = .isOpen → s.estop = false →
    (s.monitor h).state = .idle → P (s.claimAtOnce h c).state
  startStroke : ∀ {s} h c w, P s → (s.monitor h).state = .armed → (s.monitor h).claim = some c →
    (s.monitor h).copy = some w → P (s.startStroke h c w)
  sample : ∀ {s} h rec, P s → P (s.takeSample h rec).state
  abort : ∀ {s} h c, P s → (s.monitor h).state.inStroke = true → P (s.abortStroke h c []).state
  strike : ∀ {s} h c, P s → c.code ≤ 13 → P (s.strike h c).state
  freeHead : ∀ {s} h, P s → (s.monitor h).state.unacknowledged = true →
    P ((s.freeZones h).toIdle h)
  closeIfAborted : ∀ {s}, P s → P s.closeIfAborted
  openBoard : ∀ {s} serial bypass hold p, P s → s.board.state = .noBoard →
    P (s.openBoard serial bypass hold p)
  endBoard : ∀ {s}, P s → (∀ h, (s.monitor h).state.holdsBoard = false) →
    P (s.dropAll none .boardClosed s.queue).closeBoard
  abortBoard : ∀ {s}, P s → s.board.state = .isOpen → P s.abortBoard
  assertEstop : ∀ {s}, P s → P (({ s with estop := true }).endEverything .estop .estop)
  releaseEstop : ∀ {s}, P s → P { s with estop := false }
  defineSite : ∀ {s} n t x y zs, P s → s.board.state = .isOpen → s.definable n = true →
    (s.typeSlot t).state ≠ .absent → SiteSound (definedSite t x y zs) →
    P (s.setSite n (some (definedSite t x y zs)))
  loadSite : ∀ {s} n e, P s → s.site n = some e → e.state = .empty →
    P (s.setSite n (some { e with state := .loaded }))
  unloadSite : ∀ {s} n e, P s → s.site n = some e → e.state.unloadable = true →
    P ((s.setSite n (some e.unload)).endSiteClaims n e.state.claimant)
  place : ∀ {s} t r, P s → P (s.setType t ((s.typeSlot t).place r))
  purge : ∀ {s} t, P s → (s.typeSlot t).state ≠ .draining → s.typeNamed t = false →
    P (s.setType t .reset)
  reread : ∀ {s} t, P s → P (s.setType t (s.typeSlot t).reread)
  repair : ∀ {s} t, P s → (s.typeSlot t).state = .draining →
    (s.typeSlot t).reread.repair.state = .draining →
    P (s.setType t (s.typeSlot t).reread.repair)
  findBroken : ∀ {s} t, P s → (s.typeSlot t).state ≠ .absent → (s.typeSlot t).state ≠ .draining →
    P ((s.setType t { (s.typeSlot t).reread with state := .broken }).dropBroken none t)
  failRepair : ∀ {s} t, P s → (s.typeSlot t).state = .draining →
    ((s.typeSlot t).reread.repair.state = .draining → (s.typeSlot t).reread.repair.active = none) →
    P ((s.setType t { (s.typeSlot t).reread.repair with state := .broken }).dropBroken none t)
  flip : ∀ {s} t which word bit, P s → P (s.setType t ((s.typeSlot t).flip which word bit))
  warmReset : ∀ {s}, P s → P s.warmReset
  hardwareReset : ∀ {s}, P s → P { State.reset with
    pending := s.pending, clock := s.clock, estop := s.estop, resetHeld := true }
  releaseReset : ∀ {s} phases, P s → P (s.releaseReset phases)


/-- A drop for LINK_DOWN tells the head nothing (R82). -/
theorem State.dropEntry_linkDown {s : State} (a : Option Head) (e : QueueEntry) :
    s.dropEntry a .linkDown e = (s.leaveQueue e.head).toIdle e.head := by
  simp [State.dropEntry, State.toIdle]

namespace LinkSound

variable {k : LinkState}

/-- A reply put in its place (R169). -/
theorem replace (sound : LinkSound k) (place : Nat) (f : OutFrame) :
    LinkSound { k with out := k.out.set place f } where
  room := by simpa using sound.room
  assembly := sound.assembly
  down := fun down => by
    obtain ⟨out, others⟩ := sound.down down
    exact ⟨by simp [out], others⟩

theorem raise (sound : LinkSound k) : LinkSound { k with up := true } :=
  ⟨sound.room, sound.assembly, nofun⟩

/-- A frame lost on an UP link (R170, R171). -/
theorem overrun (sound : LinkSound k) (up : k.up = true) : LinkSound { k with overrun := true } :=
  ⟨sound.room, sound.assembly, fun down => by simp [up] at down⟩

theorem clear (sound : LinkSound k) : LinkSound { k with assembly := [], assemblyBad := false } where
  room := sound.room
  assembly := Nat.zero_le _
  down := fun down => by
    obtain ⟨out, tx, overrun, -⟩ := sound.down down
    exact ⟨out, tx, overrun, rfl, rfl⟩

/-- The oldest frame of a queue begins transmission (R170): its link is UP. -/
theorem begin (sound : LinkSound k) {f : OutFrame} {rest : List OutFrame} (out : k.out = f :: rest)
    (tx : TxFrame) : LinkSound { k with out := rest, overrun := false, tx := some tx } where
  room := by
    have := sound.room
    rw [out, List.length_cons] at this
    exact Nat.le_of_succ_le this
  assembly := sound.assembly
  down := fun down => by
    have := (sound.down down).1
    simp [out] at this

theorem free (sound : LinkSound k) (time : Nat) :
    LinkSound { k with tx := none, idleSince := time } where
  room := sound.room
  assembly := sound.assembly
  down := fun down => by
    obtain ⟨out, -, others⟩ := sound.down down
    exact ⟨out, rfl, others⟩

end LinkSound

/-- The zones that zone numbers name (R50). -/
theorem map_val_of_zonesOf {ns : List Nat} {zs : List (Fin 32)} (zones : zonesOf ns = some zs) :
    ns = zs.map (·.val) := by
  induction ns generalizing zs with
  | nil => cases zones; rfl
  | cons n ns ih =>
    unfold zonesOf at zones
    split at zones
    case h_1 z zs' zone others =>
      cases zones
      unfold zoneOf at zone
      split at zone
      · cases zone
        rw [ih others, List.map_cons]
      · cases zone
    case h_2 => cases zones

namespace Kept

variable {P : State → Prop} (kept : Kept P) {s : State}
include kept

/-! ### Links, events and requests -/

theorem offer (hs : P s) (l : Link) (f : OutFrame) : P (s.offer l f) :=
  kept.link l _ hs fun sound => sound.offer f

theorem run {p : Passing} (hs : P p.state) : P p.run := Passing.run_induct kept.pass hs

/-- A request whose effects are kept is kept with its reply, or discarded (R169). -/
theorem request (l : Link) (kind tag : Byte) (payload : List Byte) {f : State → Answer}
    (effects : ∀ {u}, P u → P (f u).state) (hs : P s) : P (s.request l kind tag payload f) := by
  unfold State.request
  split
  case isTrue => exact hs
  case isFalse heard =>
    split
    · exact kept.link l _ hs fun sound => sound.overrun (by simpa using fun up => heard (.inr (.inr up)))
    · exact kept.link l _ (effects (kept.offer hs l _)) fun sound => sound.replace _ _

theorem hello (l : Link) (tag : Byte) (payload : List Byte) (hs : P s) : P (s.hello l tag payload) := by
  unfold State.hello
  split
  · exact kept.offer (kept.link l _ hs LinkSound.raise) l _
  · refine kept.request l 1 tag payload (fun hu => ?_) hs
    unfold helloAnswer
    split <;> exact hu

theorem unknown (l : Link) (kind tag : Byte) (payload : List Byte) (hs : P s) :
    P (s.unknown l kind tag payload) := kept.request l kind tag payload (fun hu => hu) hs

/-! ### Time -/

theorem expire (hs : P s) {h : Head} (armed : (s.monitor h).state = .armed) : P (s.expire h) := by
  have ended := kept.endArmed h hs armed
  obtain ⟨c, -, e⟩ | ⟨-, e⟩ := s.expire_cases h <;> rw [e]
  · exact kept.pass (kept.offer ended (.head h) _)
  · exact kept.pass ended

theorem advance (hs : P s) (time : Nat) : P (s.advance time) :=
  State.advance_induction (fun _ k hu => kept.notBefore k hu)
    (fun _ h n hu due => kept.expire hu ((State.dueEvent_eq_some h n).1 due).1) time hs

theorem meetTimer (hs : P s) (h : Head) (event : Nat) : P (s.meetTimer h event) := by
  unfold State.meetTimer
  split
  case isTrue due => exact kept.expire hs ((State.dueEvent_eq_some h event).1 due).1
  case isFalse => exact hs

/-! ### The requests of the head links -/

theorem homeAnswer (h : Head) (payload : List Byte) (hs : P s) : P (homeAnswer h payload s).state := by
  unfold Machine.homeAnswer
  split_ifs
  · exact hs
  · exact kept.front h _ hs FrontSound.home
  · exact hs

theorem claimAnswer (h : Head) (payload : List Byte) (hs : P s) :
    P (claimAnswer h payload s).state := by
  unfold Machine.claimAnswer
  split_ifs with _ _ noBoard aborting estop busy
  case neg =>
    have isOpen : s.board.state = .isOpen := by
      cases board : s.board.state <;> simp_all
    rw [Bool.not_eq_true] at estop
    rw [not_not] at busy
    split
    · exact hs
    · unfold State.claimSite
      split_ifs
      · exact hs
      · exact hs
      · exact kept.pass (kept.claimWaiting h _ hs isOpen estop busy)
      · exact kept.claimAtOnce h _ hs isOpen estop busy
  all_goals exact hs

theorem releaseAnswer (h : Head) (payload : List Byte) (hs : P s) :
    P (releaseAnswer h payload s).state := by
  unfold Machine.releaseAnswer
  split
  · exact hs
  · split
    · exact kept.pass (kept.leaveQueue h hs ‹_›)
    · exact kept.pass (kept.endArmed h hs ‹_›)
    · exact hs
    · exact hs

theorem startAnswer (h : Head) (payload : List Byte) (hs : P s) :
    P (startAnswer h payload s).state := by
  unfold Machine.startAnswer
  split
  · exact hs
  · split
    · exact hs
    case h_2 armed =>
      unfold State.startArmed
      simp only
      split
      case h_1 c w claim copy =>
        split_ifs
        · exact hs
        · exact hs
        · exact hs
        · unfold State.acceptStart
          have started := kept.startStroke h c w hs armed claim copy
          simp only
          split <;> exact started
      case h_2 => exact hs
    · exact hs

theorem stopAnswer (h : Head) (payload : List Byte) (hs : P s) : P (stopAnswer h payload s).state := by
  unfold Machine.stopAnswer
  split_ifs with _ inStroke
  · exact hs
  · exact kept.run (kept.abort h _ hs inStroke)
  · exact hs

theorem leaveStroke (h : Head) (hs : P s) (ended : (s.monitor h).state.unacknowledged = true) :
    P (s.leaveStroke h) := kept.closeIfAborted (kept.pass (kept.freeHead h hs ended))

theorem retractedAnswer (h : Head) (payload : List Byte) (hs : P s) :
    P (retractedAnswer h payload s).state := by
  unfold Machine.retractedAnswer
  split_ifs with _ retract
  · exact hs
  · exact kept.leaveStroke h hs (by rw [retract]; rfl)
  · exact hs

theorem haltAckAnswer (h : Head) (payload : List Byte) (hs : P s) :
    P (haltAckAnswer h payload s).state := by
  unfold Machine.haltAckAnswer
  split
  · exact hs
  · split
    case h_1 a halted _ =>
      have recorded : P (s.appendDue a.record) ∧ (s.appendDue a.record).monitor h = s.monitor h := by
        unfold State.appendDue
        split
        · exact ⟨kept.records _ hs, rfl⟩
        · exact ⟨hs, rfl⟩
      exact kept.leaveStroke h recorded.1 (by rw [recorded.2, halted]; rfl)
    case h_2 => exact hs

/-! ### The requests of the cell link -/

theorem configureHeadAnswer (payload : List Byte) (hs : P s) :
    P (configureHeadAnswer payload s).state := by
  unfold Machine.configureHeadAnswer
  split
  · exact hs
  · split
    · split
      · exact hs
      · refine kept.front _ _ hs fun sound => sound.configure (fun g hg => ?_) (at16_le ..) _ _
        simp only [gainsOf, PerCorner.toList, List.mem_cons, List.not_mem_nil, or_false] at hg
        rcases hg with rfl | rfl | rfl | rfl <;> exact at16_le ..
    · exact hs

theorem boardBeginAnswer (payload : List Byte) (hs : P s) :
    P (boardBeginAnswer payload s).state := by
  unfold Machine.boardBeginAnswer
  split
  · exact hs
  · split
    · exact hs
    · split
      case isTrue => exact hs
      case isFalse free =>
        exact kept.openBoard _ _ _ _ hs (not_not.1 (not_or.1 free).1)

theorem boardEndAnswer (payload : List Byte) (hs : P s) : P (boardEndAnswer payload s).state := by
  unfold Machine.boardEndAnswer
  split_ifs with _ _ _ busy
  case neg =>
    refine kept.endBoard hs fun h => ?_
    rw [PerHead.any_toList_iff] at busy
    exact eq_false_of_ne_true fun holds => busy ⟨h, holds⟩
  all_goals exact hs

theorem boardAbortAnswer (payload : List Byte) (hs : P s) :
    P (boardAbortAnswer payload s).state := by
  unfold Machine.boardAbortAnswer
  split
  · exact hs
  · split
    · exact hs
    · exact hs
    case h_3 isOpen =>
      have aborted := kept.abortBoard hs isOpen
      simpa only [State.answer] using aborted

omit kept in
/-- A request on a site keeps what it keeps on an OPEN board. -/
theorem onOpenSite {n : Nat} {f : Fin 96 → Answer} (hs : P s)
    (effects : s.board.state = .isOpen → ∀ m, P (f m).state) : P (s.onOpenSite n f).state := by
  unfold State.onOpenSite
  split
  · exact hs
  · exact hs
  · split
    · exact hs
    · exact effects ‹_› _

theorem siteDefineAnswer (payload : List Byte) (hs : P s) :
    P (siteDefineAnswer payload s).state := by
  unfold Machine.siteDefineAnswer
  split_ifs with short count length
  case neg =>
    refine onOpenSite hs fun isOpen n => ?_
    unfold State.defineSite
    split
    case h_1 t zs _ zones =>
      split_ifs with repeated absent taken
      case neg =>
        refine kept.defineSite n t _ _ zs hs isOpen (by simpa using taken) absent ?_
        have numbers := map_val_of_zonesOf zones
        have few : payload.length - 7 = zs.length := by
          simpa [zoneNumbers] using congrArg List.length numbers
        have once : zs.Nodup := by
          rw [numbers, Bool.not_eq_false, distinct_iff] at repeated
          exact repeated.of_map
        exact definedSite_sound (by omega) once ⟨at16_le .., at16_le ..⟩ t
      all_goals exact hs
    case h_2 => exact hs
  all_goals exact hs

theorem loadAnswer (payload : List Byte) (hs : P s) : P (loadAnswer payload s).state := by
  unfold Machine.loadAnswer
  split
  · exact hs
  · refine onOpenSite hs fun _ n => ?_
    unfold State.loadSite
    split
    case h_1 => exact hs
    case h_2 e site =>
      split
      case isTrue empty => exact kept.loadSite n e hs site empty
      case isFalse => exact hs

theorem unloadAnswer (payload : List Byte) (hs : P s) : P (unloadAnswer payload s).state := by
  unfold Machine.unloadAnswer
  split
  · exact hs
  · refine onOpenSite hs fun _ n => ?_
    unfold State.unloadSite
    split
    case h_1 => exact hs
    case h_2 e site =>
      split
      case isTrue taken => exact kept.unloadSite n e hs site taken
      case isFalse => exact hs

omit kept in
theorem readSiteAnswer (payload : List Byte) (hs : P s) : P (readSiteAnswer payload s).state := by
  unfold Machine.readSiteAnswer
  split_ifs
  · exact hs
  · exact hs
  · split <;> exact hs

theorem loadTypeAnswer (payload : List Byte) (hs : P s) : P (loadTypeAnswer payload s).state := by
  unfold Machine.loadTypeAnswer
  split
  · exact hs
  · split
    · exact hs
    case h_2 t _ =>
      split_ifs
      · exact hs
      · exact hs
      · unfold State.loadRecord
        split
        · exact hs
        · have placed := kept.place t (recordOf payload) hs
          simp only [State.answer, State.placeRecord]
          split
          · exact kept.pass placed
          · exact placed

omit kept in
/-- A request on a type keeps what it keeps of a type that is not ABSENT. -/
theorem onType {payload : List Byte} {f : Fin 48 → Answer} (hs : P s)
    (effects : ∀ t, (s.typeSlot t).state ≠ .absent → P (f t).state) :
    P (s.onType payload f).state := by
  unfold State.onType
  split
  · exact hs
  · split
    · exact hs
    · split
      case isTrue => exact hs
      case isFalse present => exact effects _ present

theorem purgeTypeAnswer (payload : List Byte) (hs : P s) :
    P (purgeTypeAnswer payload s).state := by
  refine onType hs fun t _ => ?_
  unfold State.purge
  split_ifs with draining named
  · exact hs
  · exact hs
  · exact kept.purge t hs draining (by simpa using named)

/-- The drops of a type found BROKEN, and their pass (R34, R71). -/
theorem foundBroken {t : Fin 48} {slot : TypeSlot}
    (dropped : P ((s.setType t { slot with state := .broken }).dropBroken none t)) :
    P (s.foundBroken t slot).state := kept.run dropped

theorem readTypeAnswer (payload : List Byte) (hs : P s) : P (readTypeAnswer payload s).state := by
  refine onType hs fun t present => ?_
  unfold State.readType
  simp only
  split
  · exact hs
  · split
    · exact kept.reread t hs
    · split
      case isTrue draining =>
        unfold State.readDraining
        simp only
        split
        case h_1 still _ => exact kept.repair t hs draining still
        case h_2 other =>
          refine kept.foundBroken (kept.failRepair t hs draining fun still => ?_)
          by_contra active
          obtain ⟨r, active⟩ := Option.ne_none_iff_exists'.1 active
          exact other r still active
      case isFalse steady => exact kept.foundBroken (kept.findBroken t hs present steady)

theorem takeRecordAnswer (payload : List Byte) (hs : P s) :
    P (takeRecordAnswer payload s).state := by
  unfold Machine.takeRecordAnswer
  split
  · exact hs
  · split
    · exact hs
    · exact kept.pass (kept.records _ hs)

theorem warmResetAnswer (payload : List Byte) (hs : P s) :
    P (warmResetAnswer payload s).state := by
  unfold Machine.warmResetAnswer
  split
  · exact hs
  · exact kept.warmReset hs

/-! ### Frames and events -/

/-- A valid frame on a link (R169). -/
theorem frameEnds (l : Link) (kind tag : Byte) (payload : List Byte) (hs : P s) :
    ∃ t, frameEnds l kind tag payload s = .next t ∧ P t := by
  cases l with
  | head h =>
    simp only [Machine.frameEnds, headFrame]
    split
    · exact ⟨_, rfl, kept.hello (.head h) tag payload hs⟩
    · refine ⟨_, rfl, kept.request (.head h) 2 tag payload (fun hu => ?_) hs⟩
      unfold statusAnswer; split <;> exact hu
    · exact ⟨_, rfl, kept.request (.head h) 16 tag payload (kept.homeAnswer h payload) hs⟩
    · exact ⟨_, rfl, kept.request (.head h) 17 tag payload (kept.claimAnswer h payload) hs⟩
    · exact ⟨_, rfl, kept.request (.head h) 18 tag payload (kept.releaseAnswer h payload) hs⟩
    · exact ⟨_, rfl, kept.request (.head h) 19 tag payload (kept.startAnswer h payload) hs⟩
    · exact ⟨_, rfl, kept.request (.head h) 20 tag payload (kept.stopAnswer h payload) hs⟩
    · exact ⟨_, rfl, kept.request (.head h) 21 tag payload (kept.retractedAnswer h payload) hs⟩
    · exact ⟨_, rfl, kept.request (.head h) 22 tag payload (kept.haltAckAnswer h payload) hs⟩
    · exact ⟨_, rfl, kept.unknown (.head h) kind tag payload hs⟩
  | cell =>
    simp only [Machine.frameEnds, cellFrame]
    split
    · exact ⟨_, rfl, kept.hello .cell tag payload hs⟩
    · refine ⟨_, rfl, kept.request .cell 2 tag payload (fun hu => ?_) hs⟩
      unfold cellStatusAnswer; split <;> exact hu
    · exact ⟨_, rfl, kept.request .cell 32 tag payload (kept.configureHeadAnswer payload) hs⟩
    · exact ⟨_, rfl, kept.request .cell 33 tag payload (kept.boardBeginAnswer payload) hs⟩
    · exact ⟨_, rfl, kept.request .cell 34 tag payload (kept.boardEndAnswer payload) hs⟩
    · exact ⟨_, rfl, kept.request .cell 35 tag payload (kept.boardAbortAnswer payload) hs⟩
    · exact ⟨_, rfl, kept.request .cell 36 tag payload (kept.siteDefineAnswer payload) hs⟩
    · exact ⟨_, rfl, kept.request .cell 37 tag payload (kept.loadAnswer payload) hs⟩
    · exact ⟨_, rfl, kept.request .cell 38 tag payload (kept.unloadAnswer payload) hs⟩
    · exact ⟨_, rfl, kept.request .cell 39 tag payload (readSiteAnswer payload) hs⟩
    · exact ⟨_, rfl, kept.request .cell 40 tag payload (kept.loadTypeAnswer payload) hs⟩
    · exact ⟨_, rfl, kept.request .cell 41 tag payload (kept.purgeTypeAnswer payload) hs⟩
    · exact ⟨_, rfl, kept.request .cell 42 tag payload (kept.readTypeAnswer payload) hs⟩
    · exact ⟨_, rfl, kept.request .cell 43 tag payload (kept.takeRecordAnswer payload) hs⟩
    · exact ⟨_, rfl, kept.request .cell 44 tag payload (kept.warmResetAnswer payload) hs⟩
    · exact ⟨_, rfl, kept.unknown .cell kind tag payload hs⟩

theorem headLinkLost (h : Head) (hs : P s) : P (s.headLinkLost h) := by
  unfold State.headLinkLost
  split
  case h_1 waiting =>
    split
    case h_1 e entry =>
      have own : e.head = h := by simpa using List.find?_some entry
      rw [State.dropEntry_linkDown, own]
      exact kept.pass (kept.leaveQueue h hs waiting)
    case h_2 missing =>
      have absent : s.leaveQueue h = s := by
        have all : s.queue.filter (fun e => !(e.head == h)) = s.queue :=
          List.filter_eq_self.2 (by simpa [State.entryOf] using missing)
        rw [State.leaveQueue, all]
      have ended := kept.leaveQueue h hs waiting
      rwa [absent] at ended
  case h_2 armed =>
    have ended := kept.endArmed h hs armed
    unfold State.revoke
    split
    · simpa using kept.pass ended
    · exact kept.pass ended
  case h_3 => exact kept.run (kept.strike h .linkDown hs (by decide))

theorem breakLink (l : Link) (hs : P s) : P (s.breakLink l) := by
  have dropped : P (s.dropLink l) :=
    kept.link l _ hs fun _ => ⟨Nat.zero_le _, Nat.zero_le _, fun _ => ⟨rfl, rfl, rfl, rfl, rfl⟩⟩
  cases l with
  | head h => exact kept.headLinkLost h dropped
  | cell => exact dropped

theorem startFrame (l : Link) (hs : P s) : P (s.startFrame l) := by
  unfold State.startFrame
  simp only
  split
  · have later := kept.advance hs ((s.link l).idleSince + Config.idleGap)
    unfold State.beginFrame
    simp only
    split
    case h_1 f rest out => exact kept.link l _ later fun sound => sound.begin out _
    case h_2 => exact later
  · exact hs

theorem endFrame (l : Link) (hs : P s) : P (s.endFrame l) := by
  unfold State.endFrame
  split
  · exact kept.link l _ (kept.advance hs _) fun sound => sound.free _
  · exact hs

theorem completeSample (h : Head) (conv : PerCorner Conversions) (hs : P s) :
    P (s.completeSample h conv) :=
  kept.run (kept.sample h _ (kept.front h _ hs fun sound => sound.complete _ _ _))

/-- A property that the operations keep is kept by every command, which answers a next state. -/
theorem exec (c : Instr) (hs : P s) : ∃ t, exec c s = .next t ∧ P t := by
  cases c
  case sampleComplete h conv =>
    refine ⟨_, rfl, ?_⟩
    split
    · exact hs
    · exact kept.completeSample h conv hs
  case encoderTransition h seen =>
    refine ⟨_, rfl, ?_⟩
    split
    · exact hs
    · exact kept.front h _ hs fun sound => sound.observe seen
  case holdTimerExpiry h event => exact ⟨_, rfl, kept.meetTimer (kept.advance hs _) h event⟩
  case estopAsserted => exact ⟨_, rfl, kept.assertEstop hs⟩
  case estopReleased => exact ⟨_, rfl, kept.pass (kept.releaseEstop hs)⟩
  case hardwareReset => exact ⟨_, rfl, kept.hardwareReset hs⟩
  case resetReleased phases =>
    refine ⟨_, rfl, ?_⟩
    split
    · exact kept.releaseReset phases hs
    · exact hs
  case linkBreak l =>
    refine ⟨_, rfl, ?_⟩
    split
    · exact kept.breakLink l hs
    · exact hs
  case frameTransmitStart l => exact ⟨_, rfl, kept.startFrame l hs⟩
  case frameTransmissionEnd l => exact ⟨_, rfl, kept.endFrame l hs⟩
  case invalidFrame l chars =>
    simp only [Machine.exec, execInvalidFrame]
    split
    · exact ⟨_, rfl, hs⟩
    · have cleared : P (s.clearAssembly l) := kept.link l _ hs LinkSound.clear
      split
      · exact ⟨_, rfl, cleared⟩
      · exact kept.frameEnds l _ _ _ cleared
  case memoryWordFault t which word bit => exact ⟨_, rfl, kept.flip t which word bit hs⟩
  case downLinkDiscard l kind tag payload => exact kept.frameEnds l kind tag payload hs
  case overrunDiscard l kind tag payload => exact kept.frameEnds l kind tag payload hs
  case unknownRequest l kind tag payload => exact kept.frameEnds l kind tag payload hs
  case hello l tag payload => exact ⟨_, rfl, kept.hello l tag payload hs⟩
  case status h tag payload => exact kept.frameEnds (.head h) 2 tag payload hs
  case cellStatus tag payload => exact kept.frameEnds .cell 2 tag payload hs
  case home h tag payload => exact kept.frameEnds (.head h) 16 tag payload hs
  case claim h tag payload => exact kept.frameEnds (.head h) 17 tag payload hs
  case release h tag payload => exact kept.frameEnds (.head h) 18 tag payload hs
  case start h tag payload => exact kept.frameEnds (.head h) 19 tag payload hs
  case stop h tag payload => exact kept.frameEnds (.head h) 20 tag payload hs
  case retracted h tag payload => exact kept.frameEnds (.head h) 21 tag payload hs
  case haltAck h tag payload => exact kept.frameEnds (.head h) 22 tag payload hs
  case configureHead tag payload => exact kept.frameEnds .cell 32 tag payload hs
  case boardBegin tag payload => exact kept.frameEnds .cell 33 tag payload hs
  case boardEnd tag payload => exact kept.frameEnds .cell 34 tag payload hs
  case boardAbort tag payload => exact kept.frameEnds .cell 35 tag payload hs
  case siteDefine tag payload => exact kept.frameEnds .cell 36 tag payload hs
  case load tag payload => exact kept.frameEnds .cell 37 tag payload hs
  case unload tag payload => exact kept.frameEnds .cell 38 tag payload hs
  case readSite tag payload => exact kept.frameEnds .cell 39 tag payload hs
  case loadType tag payload => exact kept.frameEnds .cell 40 tag payload hs
  case purgeType tag payload => exact kept.frameEnds .cell 41 tag payload hs
  case readType tag payload => exact kept.frameEnds .cell 42 tag payload hs
  case takeRecord tag payload => exact kept.frameEnds .cell 43 tag payload hs
  case warmReset tag payload => exact kept.frameEnds .cell 44 tag payload hs

/-- What every command keeps, and the taking of a command from the queue too, every step keeps. -/
theorem step (pending : ∀ {u} cs, P u → P { u with pending := cs }) (hs : P s) {t : State}
    (stepped : step s = .next t) : P t := by
  unfold Machine.step at stepped
  split at stepped
  · cases stepped
    exact kept.advance hs _
  · obtain ⟨u, next, hu⟩ := kept.exec _ (pending _ hs)
    rw [next] at stepped
    cases stepped
    exact hu

end Kept

end Sys2Proof.Machine

end

section
/-! Every step keeps the ranges of links, front ends, types, sites and heads: each operation of `Kept`
keeps each of the five range laws that held before it. -/

namespace Sys2Proof.Machine

variable {s t u : State}

/-! ### The users of a type -/

@[simp] theorem State.setType_setType (i : Fin 48) (a b : TypeSlot) :
    (s.setType i a).setType i b = s.setType i b := by
  simp [State.setType]

@[simp] theorem State.setType_typeSlot_self (i : Fin 48) (a : TypeSlot) :
    (s.setType i a).typeSlot i = a := by simp

/-- A type's slot once its last user has left a DRAINING type: the pending record installed, or the
type BROKEN (R29, R36). -/
def TypeSlot.drained (slot : TypeSlot) : TypeSlot := ({ slot with users := 0 } : TypeSlot).install

@[simp] theorem TypeSlot.reread_state (slot : TypeSlot) : slot.reread.state = slot.state := by
  unfold TypeSlot.reread; split <;> rfl

@[simp] theorem TypeSlot.reread_users (slot : TypeSlot) : slot.reread.users = slot.users := by
  unfold TypeSlot.reread; split <;> rfl

@[simp] theorem TypeSlot.reread_waiting (slot : TypeSlot) : slot.reread.waiting = slot.waiting := by
  unfold TypeSlot.reread; split <;> rfl

/-- All that the release of a user does: one user less; or, the last of a DRAINING type, the
installation, a type found BROKEN losing its waiting claims (R28, R29, R36, R71). -/
theorem State.releaseUser_cases (s : State) (i : Fin 48) :
    (¬ ((s.typeSlot i).state = .draining ∧ (s.typeSlot i).users = 1) ∧ s.releaseUser i =
      { state := s.setType i { s.typeSlot i with users := (s.typeSlot i).users - 1 }, due := false }) ∨
    ((s.typeSlot i).state = .draining ∧ (s.typeSlot i).users = 1 ∧
      (((s.typeSlot i).drained.state ≠ .broken ∧ s.releaseUser i =
          { state := s.setType i (s.typeSlot i).drained, due := true }) ∨
        ((s.typeSlot i).drained.state = .broken ∧ s.releaseUser i =
          { state := (s.setType i (s.typeSlot i).drained).dropBroken none i
            due := !(s.waitingOnType i).isEmpty }))) := by
  unfold State.releaseUser
  simp only
  split
  case isFalse other => exact .inl ⟨other, rfl⟩
  case isTrue last =>
    obtain ⟨draining, one⟩ := last
    refine .inr ⟨draining, one, ?_⟩
    simp only [State.installType, State.setType_typeSlot_self, State.setType_setType, one,
      Nat.sub_self]
    by_cases broken : (s.typeSlot i).drained.state = .broken
    · exact .inr ⟨broken, if_pos broken⟩
    · exact .inl ⟨broken, if_neg broken⟩

/-! ### The abort of a stroke -/

/-- The abort of a stroke, as the operations it is made of (R136). -/
theorem State.abortStroke_of {h : Head} {c : Claim} {w : WorkingCopy} {k : Stroke}
    (claim : (s.monitor h).claim = some c) (copy : (s.monitor h).copy = some w)
    (stroke : (s.monitor h).stroke = some k) (cause : Cause) (further : List Cause) :
    s.abortStroke h cause further =
      let ended := ((s.setMonitor h ((s.monitor h).halt h c w k (s.front h).heldCount cause
        further)).changeSite c.site
          (·.apply (.abort cause (s.monitor h).state.afterContact))).releaseUser w.typeNo
      { state := (ended.state.setFront h (s.front h).restartTare).eventAborted h c.site cause
        due := ended.due } := by
  unfold State.abortStroke
  simp only
  split
  case h_1 claim' copy' stroke' =>
    cases claim.symm.trans claim'
    cases copy.symm.trans copy'
    cases stroke.symm.trans stroke'
    rfl
  case h_2 other => exact absurd stroke (other c w k claim copy)

/-- An abort leaves its head HALTED, or IDLE where it still waited; of the others some may be IDLE that
were not (R34, R136). -/
theorem State.abortStroke_monitor {h : Head} {c : Claim} {w : WorkingCopy} {k : Stroke}
    (claim : (s.monitor h).claim = some c) (copy : (s.monitor h).copy = some w)
    (stroke : (s.monitor h).stroke = some k) (cause : Cause) (further : List Cause) (j : Head) :
    (s.abortStroke h cause further).state.monitor j = Monitor.idle ∨
      (s.abortStroke h cause further).state.monitor j =
        if j = h then (s.monitor h).halt h c w k (s.front h).heldCount cause further
        else s.monitor j := by
  rw [State.abortStroke_of claim copy stroke]
  have idles := (State.releaseUser_idles (s := (s.setMonitor h ((s.monitor h).halt h c w k
    (s.front h).heldCount cause further)).changeSite c.site
      (·.apply (.abort cause (s.monitor h).state.afterContact))) w.typeNo).monitor j
  simpa [State.eventAborted] using idles

/-- What the end of a claim or a stroke can make of the heads: its own is HALTED, IDLE, or had neither;
another is left, or IDLE where its waiting claim was dropped. -/
def EndsHead (h : Head) (s t : State) : Prop := ∀ j,
  t.monitor j = Monitor.idle ∨ (j = h ∧ (t.monitor j).state = .halted) ∨
    (t.monitor j = s.monitor j ∧ (j = h → (s.monitor j).state.active = false))

theorem EndsHead.inactive {h : Head} (ends : EndsHead h s t) (j : Head)
    (ended : j = h ∨ (s.monitor j).state.active = false) : (t.monitor j).state.active = false := by
  obtain idle | ⟨-, halted⟩ | ⟨kept, own⟩ := ends j
  · rw [idle]; rfl
  · rw [halted]; rfl
  · rw [kept]; exact ended.elim own id

theorem EndsHead.not_waiting {h : Head} (ends : EndsHead h s t) (j : Head)
    (before : (s.monitor j).state ≠ .waiting) : (t.monitor j).state ≠ .waiting := by
  obtain idle | ⟨-, halted⟩ | ⟨kept, -⟩ := ends j
  · rw [idle]; exact nofun
  · rw [halted]; exact nofun
  · rwa [kept]

theorem revoke_endsHead (sound : HeadsSound s) {h : Head} (armed : (s.monitor h).state = .armed)
    (r : ClaimReason) : EndsHead h s (s.revoke h r) := fun j => by
  obtain ⟨c, claim⟩ := Option.isSome_iff_exists.1
    ((sound h).claimed (by simp [armed]) (by simp [armed])).1
  have monitor : (s.revoke h r).monitor j = (s.endArmed h).monitor j := by
    simp only [State.revoke, claim]
    split <;> rfl
  obtain ⟨idles, own⟩ := State.endArmed_idles (s := s) h
  rw [monitor]
  by_cases same : j = h
  · exact .inl (same ▸ own)
  · exact (idles.monitor j).imp_right fun kept => .inr ⟨kept, fun own => absurd own same⟩

theorem abortStroke_endsHead (sound : HeadsSound s) {h : Head}
    (inStroke : (s.monitor h).state.inStroke = true) (cause : Cause) (further : List Cause) :
    EndsHead h s (s.abortStroke h cause further).state := fun j => by
  obtain ⟨c, w, k, claim, copy, stroke, -⟩ := (sound h).exists_stroke inStroke
  obtain idle | halted := State.abortStroke_monitor claim copy stroke cause further j
  · exact .inl idle
  · split at halted
    case isTrue same => exact .inr (.inl ⟨same, by rw [halted]; rfl⟩)
    case isFalse other => exact .inr (.inr ⟨halted, fun same => absurd same other⟩)

theorem resetHead_endsHead (sound : HeadsSound s) (h : Head) : EndsHead h s (s.resetHead h) := by
  unfold State.resetHead
  split_ifs with armed inStroke
  · exact revoke_endsHead sound armed _
  · exact abortStroke_endsHead sound inStroke _ _
  · refine fun j => .inr (.inr ⟨rfl, fun same => ?_⟩)
    rw [same]
    exact eq_false_of_ne_true (mt (HeadState.active_iff _).1 (not_or.2 ⟨armed, inStroke⟩))

/-! ### A stroke sample -/

/-- What step 2 of R93 leaves: the progress made, and its events queued. -/
def State.progressed (s : State) (h : Head) (c : Claim) (p : Progress) : State :=
  let made := s.setMonitor h { s.monitor h with state := p.state, stroke := some p.stroke }
  let told := if p.contact then made.eventContact h c.site p.stroke else made
  if p.seated then told.eventSeated h c.site p.stroke else told

theorem State.strokeSample_of {h : Head} {c : Claim} {w : WorkingCopy} {k : Stroke}
    (claim : (s.monitor h).claim = some c) (copy : (s.monitor h).copy = some w)
    (stroke : (s.monitor h).stroke = some k) (rec : SampleRecord) :
    s.strokeSample h rec =
      (s.progressed h c ((k.countSample rec).progress (s.monitor h).state w.fields c.restrike
        rec)).concludeSample h w.fields c.restrike
          ((k.countSample rec).progress (s.monitor h).state w.fields c.restrike rec) rec := by
  unfold State.strokeSample
  simp only
  split
  case h_1 claim' copy' stroke' =>
    cases claim.symm.trans claim'
    cases copy.symm.trans copy'
    cases stroke.symm.trans stroke'
    rfl
  case h_2 other => exact absurd stroke (other c w k claim copy)

/-- The two events are queued on the head's link, and change nothing else. -/
theorem State.progressed_cases (s : State) (h : Head) (c : Claim) (p : Progress) :
    ∃ k : LinkState, (LinkSound (s.link (.head h)) → LinkSound k) ∧ s.progressed h c p =
      (s.setMonitor h { s.monitor h with state := p.state, stroke := some p.stroke }).setLink
        (.head h) k := by
  simp only [State.progressed, State.eventContact, State.eventSeated, State.event, State.offer]
  split
  · split
    · exact ⟨_, fun sound => (sound.offer _).offer _, by simp; rfl⟩
    · exact ⟨_, fun sound => sound.offer _, by simp; rfl⟩
  · split
    · exact ⟨_, fun sound => sound.offer _, by simp; rfl⟩
    · exact ⟨_, fun sound => by simpa using sound, (State.setLink_self ..).symm⟩

@[simp] theorem State.clearSession_monitor (t : State) (h : Head) :
    t.clearSession.monitor h = { t.monitor h with slot := false } := by cases h <;> rfl

/-! ### The relation of two states -/

/-- The ranges that held in a state hold in another. -/
structure RangesKept (s t : State) : Prop where
  links : LinksSound s → LinksSound t
  fronts : FrontsSound s → FrontsSound t
  library : LibrarySound s → LibrarySound t
  sites : SitesSound s → SitesSound t
  heads : HeadsSound s → HeadsSound t

/-- A front end whose held-value count is 0 (R13). -/
theorem FrontSound.uncounted {p : Period} {f : FrontEnd} (sound : FrontSound p f) :
    FrontSound p { f with heldCount := 0 } :=
  { sound with held := Nat.zero_le _ }

theorem FrontSound.rephase {p : Period} {f : FrontEnd} (sound : FrontSound p f) (phase : Phase) :
    FrontSound p { f with phase := phase } := { sound with }

/-- An IDLE head is one that nothing is left of (R87). -/
theorem HeadSound.eq_idle {m : Monitor} (sound : HeadSound m) (idle : m.state = .idle) :
    m = Monitor.idle := by
  obtain ⟨claim, copy, stroke, slot⟩ := sound.unclaimed (.inl idle)
  have timer : m.grantTime = none := by simpa [idle] using sound.timer
  have permit : m.permit = false := by rw [sound.permit, idle]; rfl
  cases m
  simp_all [Monitor.idle]

namespace RangesKept

protected theorem refl (s : State) : RangesKept s s := ⟨id, id, id, id, id⟩

protected theorem trans (first : RangesKept s t) (second : RangesKept t u) : RangesKept s u where
  links := second.links ∘ first.links
  fronts := second.fronts ∘ first.fronts
  library := second.library ∘ first.library
  sites := second.sites ∘ first.sites
  heads := second.heads ∘ first.heads

/-! ### The updates of State -/

protected theorem setLink (l : Link) {k : LinkState} (part : LinkSound (s.link l) → LinkSound k) :
    RangesKept s (s.setLink l k) where
  links := fun sound j => by
    rw [State.setLink_link]
    split
    case isTrue => exact part (sound l)
    case isFalse => exact sound j
  fronts := fun sound h => by simpa using sound h
  library := fun sound i => by simpa using sound i
  sites := fun sound n e site => sound n e (by simpa using site)
  heads := fun sound h => by simpa using sound h

protected theorem offer (l : Link) (f : OutFrame) : RangesKept s (s.offer l f) :=
  .setLink l fun sound => sound.offer f

protected theorem event (h : Head) (kind : Byte) (fields : List Byte) :
    RangesKept s (s.event h kind fields) := .offer (.head h) _

protected theorem setFront (h : Head) {f : FrontEnd}
    (part : FrontSound s.period (s.front h) → FrontSound s.period f) :
    RangesKept s (s.setFront h f) where
  links := fun sound l => by simpa using sound l
  fronts := fun sound j => by
    rw [State.setFront_front, State.setFront_period]
    split
    case isTrue => exact part (sound h)
    case isFalse => exact sound j
  library := fun sound i => by simpa using sound i
  sites := fun sound n e site => sound n e (by simpa using site)
  heads := fun sound h => by simpa using sound h

protected theorem setMonitor (h : Head) {m : Monitor}
    (part : HeadSound (s.monitor h) → HeadSound m) : RangesKept s (s.setMonitor h m) where
  links := fun sound l => by simpa using sound l
  fronts := fun sound h => by simpa using sound h
  library := fun sound i => by simpa using sound i
  sites := fun sound n e site => sound n e (by simpa using site)
  heads := fun sound j => by
    rw [State.setMonitor_monitor]
    split
    case isTrue => exact part (sound h)
    case isFalse => exact sound j

protected theorem setType (i : Fin 48) {slot : TypeSlot}
    (part : SlotSound (s.typeSlot i) → SlotSound slot) : RangesKept s (s.setType i slot) where
  links := fun sound l => by simpa using sound l
  fronts := fun sound h => by simpa using sound h
  library := fun sound j => by
    rw [State.setType_typeSlot]
    split
    case isTrue => exact part (sound i)
    case isFalse => exact sound j
  sites := fun sound n e site => sound n e (by simpa using site)
  heads := fun sound h => by simpa using sound h

protected theorem setSite (n : Fin 96) {e : Option SiteEntry}
    (part : SitesSound s → ∀ e', e = some e' → SiteSound e') : RangesKept s (s.setSite n e) where
  links := fun sound l => by simpa using sound l
  fronts := fun sound h => by simpa using sound h
  library := fun sound i => by simpa using sound i
  sites := fun sound m e' site => by
    rw [State.setSite_site] at site
    split at site
    case isTrue => exact part sound e' site
    case isFalse => exact sound m e' site
  heads := fun sound h => by simpa using sound h

protected theorem changeSite (n : Fin 96) {f : SiteEntry → SiteEntry}
    (part : ∀ e, s.site n = some e → SiteSound e → SiteSound (f e)) :
    RangesKept s (s.changeSite n f) := by
  refine .setSite n fun sound e' changed => ?_
  obtain ⟨e, site, rfl⟩ := Option.map_eq_some_iff.1 changed
  exact part e site (sound n e site)

/-- An update of other parts of the state. -/
protected theorem of_same (links : ∀ l, t.link l = s.link l) (period : t.period = s.period)
    (fronts : t.fronts = s.fronts) (library : t.library = s.library) (sites : t.sites = s.sites)
    (monitors : t.monitors = s.monitors) : RangesKept s t where
  links := fun sound l => by rw [links]; exact sound l
  fronts := fun sound h => by rw [period, State.front, fronts]; exact sound h
  library := fun sound i => by rw [State.typeSlot, library]; exact sound i
  sites := fun sound n e site => sound n e (by rwa [State.site, sites] at site)
  heads := fun sound h => by rw [State.monitor, monitors]; exact sound h

protected theorem leaveQueue (h : Head) : RangesKept s (s.leaveQueue h) := by
  apply RangesKept.of_same <;> simp

protected theorem freeZones (h : Head) : RangesKept s (s.freeZones h) := by
  apply RangesKept.of_same <;> simp

protected theorem takeZones (h : Head) (zs : List (Fin 32)) : RangesKept s (s.takeZones h zs) := by
  apply RangesKept.of_same <;> simp

protected theorem raiseBypass (older : List QueueEntry) (n : Fin 96) :
    RangesKept s (s.raiseBypass older n) := by
  apply RangesKept.of_same <;> simp

protected theorem toIdle (h : Head) : RangesKept s (s.toIdle h) := .setMonitor h fun _ => .idle

protected theorem closeBoard : RangesKept s s.closeBoard where
  links := id
  fronts := id
  library := id
  sites := fun _ n e site => by simp [State.closeBoard, State.site] at site
  heads := id

/-! ### Drops, releases and the ends of claims -/

protected theorem dropEntry (a : Option Head) (r : ClaimReason) (e : QueueEntry) :
    RangesKept s (s.dropEntry a r e) := by
  have dropped : RangesKept s ((s.leaveQueue e.head).setMonitor e.head .idle) :=
    (RangesKept.leaveQueue _).trans (.setMonitor _ fun _ => .idle)
  obtain ⟨-, h⟩ | ⟨-, h⟩ := s.dropEntry_cases a r e <;> rw [h]
  · exact dropped
  · exact dropped.trans (.offer ..)

protected theorem dropAll (a : Option Head) (r : ClaimReason) (es : List QueueEntry) :
    RangesKept s (s.dropAll a r es) := by
  induction es generalizing s with
  | nil => exact .refl s
  | cons e es ih => exact (RangesKept.dropEntry a r e).trans ih

protected theorem releaseUser (i : Fin 48) : RangesKept s (s.releaseUser i).state := by
  obtain ⟨steady, h⟩ | ⟨draining, -, ⟨-, h⟩ | ⟨-, h⟩⟩ := s.releaseUser_cases i <;> rw [h]
  · refine .setType i fun sound => sound.withUsers (fun absent => ?_) fun draining => ?_
    · rw [(sound.absent absent).1]
    · have used := sound.draining draining
      have : (s.typeSlot i).users ≠ 1 := fun one => steady ⟨draining, one⟩
      omega
  · exact .setType i fun sound => sound.install draining 0
  · exact (RangesKept.setType i fun sound => sound.install draining 0).trans (.dropAll ..)

protected theorem returnSite (h : Head) : RangesKept s (s.returnSite h) := by
  unfold State.returnSite
  split
  · exact .changeSite _ fun _ _ sound => sound.unclaim
  · exact .refl s

protected theorem endArmed (h : Head) : RangesKept s (s.endArmed h) := by
  have freed : RangesKept s ((s.returnSite h).freeZones h) := (RangesKept.returnSite h).trans (.freeZones h)
  unfold State.endArmed State.releaseUserOf
  split
  · exact (freed.trans (.releaseUser _)).trans (.toIdle h)
  · exact freed.trans (.toIdle h)

protected theorem revoke (h : Head) (r : ClaimReason) : RangesKept s (s.revoke h r) := by
  have ended : RangesKept s (s.endArmed h) := .endArmed h
  unfold State.revoke
  split
  · split
    · exact ended
    · exact ended.trans (.event ..)
  · exact ended

/-! ### The pass -/

/-- A grant of a claim whose site meets it (R55, R56, R73). -/
protected theorem grant (e : QueueEntry) (i : Fin 48) (r : TypeRecord) (meets : s.meets e.claim = true)
    (ready : (s.typeSlot i).state = .ready) : RangesKept s (s.grant e i r) := by
  obtain ⟨entry, site, state⟩ := (s.meets_iff e.claim).1 meets
  unfold State.grant
  refine RangesKept.trans ?_ (.event ..)
  refine RangesKept.trans ?_ (.setMonitor _ fun _ => HeadSound.granted ..)
  refine RangesKept.trans ?_ (.leaveQueue _)
  refine RangesKept.trans ?_ (.changeSite _ fun e' site' sound => ?_)
  · refine (RangesKept.setType i fun sound => ?_).trans (.takeZones ..)
    have steady : (s.typeSlot i).reread.state = .ready := by rw [TypeSlot.reread_state, ready]
    exact sound.reread.withUsers (fun state => nomatch steady.symm.trans state)
      fun state => nomatch steady.symm.trans state
  · obtain rfl : entry = e' := by simpa [site] using site'
    exact sound.claimFor e.head (state.imp And.right And.right)

protected theorem breakType (a : Option Head) (i : Fin 48) (ready : (s.typeSlot i).state = .ready) :
    RangesKept s (s.breakType a i) := by
  have steady : (s.typeSlot i).reread.state = .ready := by rw [TypeSlot.reread_state, ready]
  exact (RangesKept.setType i fun sound =>
    sound.reread.broken (by rw [steady]; decide) (by rw [steady]; decide)).trans (.dropAll ..)

protected theorem passEntry (a : Option Head) (e : QueueEntry) : RangesKept s (s.passEntry a e) := by
  obtain ⟨-, h⟩ | ⟨-, -, h⟩ | ⟨i, meets, -, -, ready, ⟨r, -, h⟩ | ⟨-, h⟩⟩ := s.passEntry_cases a e <;>
    rw [h]
  · exact .dropEntry ..
  · exact .refl s
  · exact ((RangesKept.grant e i r meets ready).trans (.dropAll ..)).trans (.raiseBypass ..)
  · exact .breakType a i ready

protected theorem pass (a : Option Head) : RangesKept s (s.pass a) :=
  State.pass_induct a (fun _ e _ kept => kept.trans (.passEntry a e)) (.refl s)

/-! ### Strokes -/

/-- The abort of a stroke, its causes in order (R135, R136). -/
protected theorem abortStroke (h : Head) (inStroke : (s.monitor h).state.inStroke = true)
    {cause : Cause} {further : List Cause}
    (order : (cause :: further).Pairwise fun a b => a.code < b.code)
    (codes : ∀ d ∈ further, d.code ≤ 13) : RangesKept s (s.abortStroke h cause further).state := by
  unfold State.abortStroke
  simp only
  split
  case h_1 c w k claim copy stroke =>
    refine RangesKept.trans ?_ (.event ..)
    have released := ((RangesKept.setMonitor (s := s) h fun sound =>
      sound.halt inStroke h claim copy k (s.front h).heldCount order codes).trans
      (.changeSite c.site fun _ _ sound => sound.apply (.abort cause
        (s.monitor h).state.afterContact))).trans (.releaseUser w.typeNo)
    refine released.trans (.setFront h fun sound => ?_)
    simpa [State.front] using sound.restartTare _
  case h_2 => exact .refl s

protected theorem giveVerdict (h : Head) (inStroke : (s.monitor h).state.inStroke = true) :
    RangesKept s (s.giveVerdict h).state := by
  unfold State.giveVerdict
  simp only
  split
  case h_1 c w k claim copy stroke =>
    have idle := HeadSound.not_idle_of_inStroke inStroke
    refine RangesKept.trans ?_ (.event ..)
    refine RangesKept.trans ?_ (.setFront h fun sound => ?_)
    · refine RangesKept.trans ?_ (.releaseUser w.typeNo)
      refine RangesKept.trans ?_ (.changeSite c.site fun _ _ sound => sound.apply _)
      have recorded : RangesKept s (s.appendRecord (pressRecord h c w
          { k with eval := k.eval.complete w.fields.groups c.restrike } (s.front h).heldCount
          (if (k.eval.complete w.fields.groups c.restrike).failures.isEmpty then .pass else .reject)
          none)) := by apply RangesKept.of_same <;> simp
      refine recorded.trans (.setMonitor h fun sound => ?_)
      exact sound.retracted inStroke (sound.running k stroke idle.2.2.2.1)
    · simpa [State.front] using sound.restartTare _
  case h_2 => exact .refl s

protected theorem concludeSample (h : Head) (r : TypeRecord) (restrike : Bool) (p : Progress)
    (rec : SampleRecord) (inStroke : (s.monitor h).state.inStroke = true) :
    RangesKept s (s.concludeSample h r restrike p rec).state := by
  unfold State.concludeSample
  split
  case h_1 c cs found =>
    refine .abortStroke h inStroke (found ▸ strokeCauses_pairwise ..) fun d later => ?_
    have code := strokeCauses_code_le d (found ▸ List.mem_cons_of_mem c later)
    omega
  case h_2 =>
    split
    · exact .giveVerdict h inStroke
    · exact .refl s

protected theorem strokeSample (h : Head) (rec : SampleRecord)
    (inStroke : (s.monitor h).state.inStroke = true) : RangesKept s (s.strokeSample h rec).state := by
  cases claim : (s.monitor h).claim with
  | none => simpa [State.strokeSample, claim] using .refl s
  | some c =>
  cases copy : (s.monitor h).copy with
  | none => simpa [State.strokeSample, claim, copy] using .refl s
  | some w =>
  cases stroke : (s.monitor h).stroke with
  | none => simpa [State.strokeSample, claim, copy, stroke] using .refl s
  | some k =>
    rw [State.strokeSample_of claim copy stroke]
    obtain ⟨still, aborts⟩ := (k.countSample rec).progress_runs inStroke w.fields c.restrike rec
    obtain ⟨link, part, made⟩ := s.progressed_cases h c
      ((k.countSample rec).progress (s.monitor h).state w.fields c.restrike rec)
    have progressed := (RangesKept.setMonitor (s := s) h fun sound => sound.continued inStroke still
      (aborts.trans (sound.running k stroke (HeadSound.not_idle_of_inStroke inStroke).2.2.2.1))).trans
        (.setLink (.head h) (k := link) part)
    rw [← made] at progressed
    exact progressed.trans (.concludeSample h _ _ _ rec (by rw [made]; simpa using still))

protected theorem joinCauses (h : Head) {cs : List Cause} (codes : ∀ c ∈ cs, c.code ≤ 13) :
    RangesKept s (s.setMonitor h ((s.monitor h).joinCauses cs)) :=
  .setMonitor h fun sound => sound.joinCauses codes

protected theorem takeSample (h : Head) (rec : SampleRecord) :
    RangesKept s (s.takeSample h rec).state := by
  unfold State.takeSample
  split_ifs with inStroke halted
  · exact .strokeSample h rec inStroke
  · unfold State.haltedSample
    split
    · exact .joinCauses h sampleCauses_code_le
    · exact .refl s
  · exact .refl s

protected theorem strike (h : Head) (c : Cause) (code : c.code ≤ 13) :
    RangesKept s (s.strike h c).state := by
  unfold State.strike
  split
  case isTrue inStroke => exact .abortStroke h inStroke (List.pairwise_singleton ..) (by simp)
  case isFalse => exact .joinCauses h (by simpa using code)

protected theorem startStroke (h : Head) (c : Claim) (w : WorkingCopy)
    (armed : (s.monitor h).state = .armed) : RangesKept s (s.startStroke h c w) := by
  unfold State.startStroke
  refine (RangesKept.changeSite c.site fun _ _ sound => sound.press).trans ?_
  refine (RangesKept.setFront h fun sound => sound.uncounted).trans ?_
  exact .setMonitor h fun sound => by simpa using HeadSound.started (by simpa using sound) armed rfl

/-! ### Boards and resets -/

protected theorem endHead (r : ClaimReason) (c : Cause) (code : c.code ≤ 13) (h : Head) :
    RangesKept s (s.endHead r c h) := by
  unfold State.endHead
  split
  · exact .revoke h r
  · exact .strike h c code

/-- A fold over heads of what keeps the ranges. -/
protected theorem foldl {f : State → Head → State} (each : ∀ u h, RangesKept u (f u h))
    (hs : List Head) : RangesKept s (hs.foldl f s) := by
  induction hs generalizing s with
  | nil => exact .refl s
  | cons h hs ih => exact (each s h).trans ih

protected theorem endEverything (r : ClaimReason) (c : Cause) (code : c.code ≤ 13) :
    RangesKept s (s.endEverything r c) :=
  (RangesKept.dropAll none r s.queue).trans (.foldl (fun _ h => .endHead r c code h) allHeads)

protected theorem closeIfAborted : RangesKept s s.closeIfAborted := by
  unfold State.closeIfAborted
  split
  · exact .closeBoard
  · exact .refl s

protected theorem setPeriod (p : Period) : RangesKept s (s.setPeriod p) := by
  unfold State.setPeriod
  split
  · exact .refl s
  · exact ⟨id, fun sound h => by
      have restarted := (sound h).restartTare p
      rwa [State.front, ← PerHead.get_map FrontEnd.restartTare] at restarted, id, id, id⟩

protected theorem openBoard (serial : BitVec 32) (bypass hold : Nat) (p : Period) :
    RangesKept s (s.openBoard serial bypass hold p) := by
  obtain ⟨links, fronts, library, -, heads⟩ := RangesKept.setPeriod (s := s) p
  exact ⟨links, fronts, library, fun _ n e site => by simp [State.openBoard, State.site] at site, heads⟩

protected theorem endSiteClaims (n : Fin 96) (claimant : Option Head) :
    RangesKept s (s.endSiteClaims n claimant) := by
  have dropped (u : State) (revoked : RangesKept s u) : RangesKept s
      (if claimant.isSome ∨ u.waitingOnSite n ≠ [] then
        (u.dropAll none .siteChanged (u.waitingOnSite n)).pass none
      else u.dropAll none .siteChanged (u.waitingOnSite n)) := by
    split
    · exact (revoked.trans (.dropAll ..)).trans (.pass none)
    · exact revoked.trans (.dropAll ..)
  cases claimant with
  | some h => exact dropped _ (.revoke h _)
  | none => exact dropped _ (.refl s)

protected theorem resetHead (h : Head) : RangesKept s (s.resetHead h) := by
  unfold State.resetHead
  split_ifs with armed inStroke
  · exact .revoke ..
  · exact .abortStroke h inStroke (List.pairwise_singleton ..) (by simp)
  · exact .refl s

/-- After a warm reset has ended what each head of a list had, none of them is ARMED or in a stroke, nor
is a head that was not. -/
theorem resetHeads_end (hs : List Head) (sound : HeadsSound s) (j : Head)
    (ended : j ∈ hs ∨ (s.monitor j).state.active = false) :
    ((hs.foldl State.resetHead s).monitor j).state.active = false := by
  induction hs generalizing s with
  | nil => simpa using ended
  | cons h hs ih =>
    refine ih ((RangesKept.resetHead h).heads sound) ?_
    rw [List.mem_cons, or_right_comm] at ended
    exact ended.symm.imp_right ((resetHead_endsHead sound h).inactive j)

protected theorem withLibrary (library : Vector TypeSlot 48)
    (part : LibrarySound s → LibrarySound { s with library := library }) :
    RangesKept s { s with library := library } := ⟨id, id, part, id, id⟩

/-- What a warm reset clears last leaves every part in its ranges, the heads where none of them is ARMED
or in a stroke (R21, R86, R146, R161). -/
theorem of_clearSession (kept : RangesKept s t)
    (quiet : HeadsSound s → ∀ h, (t.monitor h).state.active = false) :
    RangesKept s t.clearSession where
  links := kept.links
  fronts := fun sound h => by
    have front := (kept.fronts sound h).warmReset
    rwa [State.front, ← PerHead.get_map FrontEnd.warmReset] at front
  library := kept.library
  sites := kept.sites
  heads := fun sound h => by
    have head := (kept.heads sound h).withoutSlot (quiet sound h)
    rwa [State.clearSession_monitor]

/-- A warm reset (R41, R175): no head is ARMED or in a stroke when the reservations are cleared. -/
protected theorem warmReset : RangesKept s s.warmReset := by
  have library (u : State) : RangesKept u u.resetLibrary := RangesKept.withLibrary _ fun sound i => by
    simpa [State.typeSlot] using (sound i).warmReset.1
  have closed : RangesKept s (s.dropAll none .supervisorReset s.queue).resetLibrary.closeBoard :=
    ((RangesKept.dropAll ..).trans (library _)).trans .closeBoard
  exact (closed.trans (.foldl (fun _ h => .resetHead h) allHeads)).of_clearSession
    fun sound j => resetHeads_end allHeads (closed.heads sound) j (.inl (mem_allHeads j))

end RangesKept

/-- Each operation keeps the ranges. -/
theorem rangesKept (a : State) : Kept (RangesKept a) where
  link l k hs part := hs.trans (.setLink l part)
  front h f hs part := hs.trans (.setFront h part)
  notBefore time hs := hs.trans ⟨id, id, id, id, id⟩
  records rs hs := hs.trans ⟨id, id, id, id, id⟩
  pass hs := hs.trans (.pass none)
  endArmed h hs _ := hs.trans (.endArmed h)
  leaveQueue h hs _ := hs.trans ((RangesKept.leaveQueue h).trans (.toIdle h))
  claimWaiting h c hs _ _ idle := hs.trans <| by
    have joined (u : State) : RangesKept u (u.joinQueue h c) := ⟨id, id, id, id, id⟩
    exact (joined _).trans (.setMonitor h fun sound => sound.eq_idle idle ▸ HeadSound.waiting)
  claimAtOnce h c hs _ _ _ := hs.trans <| by
    have joined (u : State) : RangesKept u (u.joinQueue h c) := ⟨id, id, id, id, id⟩
    have passed (u : State) : RangesKept u ((u.joinQueue h c).pass (some h)) :=
      (joined u).trans (.pass _)
    unfold State.claimAtOnce
    simp only
    split
    · exact passed _
    · exact (passed _).trans (.leaveQueue h)
  startStroke h c w hs armed _ _ := hs.trans (.startStroke h c w armed)
  sample h rec hs := hs.trans (.takeSample h rec)
  abort h c hs inStroke :=
    hs.trans (.abortStroke h inStroke (List.pairwise_singleton ..) (by simp))
  strike h c hs code := hs.trans (.strike h c code)
  freeHead h hs _ := hs.trans ((RangesKept.freeZones h).trans (.toIdle h))
  closeIfAborted hs := hs.trans .closeIfAborted
  openBoard serial bypass hold p hs _ := hs.trans (.openBoard serial bypass hold p)
  endBoard hs _ := hs.trans ((RangesKept.dropAll ..).trans .closeBoard)
  abortBoard hs _ := hs.trans <| by
    have aborting (u : State) (b : Board) : RangesKept u { u with board := b } := ⟨id, id, id, id, id⟩
    exact ((aborting ..).trans (.endEverything _ _ (by decide))).trans .closeIfAborted
  assertEstop hs := hs.trans <| by
    have asserted (u : State) (b : Bool) : RangesKept u { u with estop := b } := ⟨id, id, id, id, id⟩
    exact (asserted ..).trans (.endEverything _ _ (by decide))
  releaseEstop hs := hs.trans ⟨id, id, id, id, id⟩
  defineSite n t x y zs hs _ _ _ sound := hs.trans (.setSite n fun _ e' new => by cases new; exact sound)
  loadSite n e hs site empty :=
    hs.trans (.setSite n fun sound e' new => by cases new; exact (sound n e site).load empty)
  unloadSite n e hs site _ := hs.trans
    ((RangesKept.setSite n fun sound e' new => by cases new; exact (sound n e site).unload).trans
      (.endSiteClaims ..))
  place t r hs := hs.trans (.setType t fun sound => sound.place r)
  purge t hs _ _ := hs.trans (.setType t fun _ => .reset)
  reread t hs := hs.trans (.setType t SlotSound.reread)
  repair t hs draining _ := hs.trans (.setType t fun sound =>
    (sound.reread.repair (by rw [TypeSlot.reread_state, draining])).1)
  findBroken t hs present steady := hs.trans ((RangesKept.setType t fun sound =>
    sound.reread.broken (by rwa [TypeSlot.reread_state]) (by rwa [TypeSlot.reread_state])).trans
      (.dropAll ..))
  failRepair t hs draining failed := hs.trans ((RangesKept.setType t fun sound => by
    obtain ⟨repaired, present, active⟩ :=
      sound.reread.repair (by rw [TypeSlot.reread_state, draining])
    refine repaired.broken present fun still => ?_
    have := active still
    simp [failed still] at this).trans (.dropAll ..))
  flip t which word bit hs := hs.trans (.setType t fun sound => sound.flip which word bit)
  warmReset hs := hs.trans .warmReset
  hardwareReset hs := hs.trans <| by
    refine ⟨fun _ l => ?_, fun _ h => ?_, fun _ i => ?_, fun _ n e site => ?_, fun _ h => ?_⟩
    · cases l with
      | head h => cases h <;> exact .reset
      | cell => exact .reset
    · cases h <;> exact .reset _
    · simpa [State.typeSlot, State.reset] using SlotSound.reset
    · simp [State.site, State.reset] at site
    · cases h <;> exact .idle
  releaseReset {s} phases hs := hs.trans
    ⟨id, fun sound h => by
      cases h
      · exact (sound .h0).rephase phases.h0
      · exact (sound .h1).rephase phases.h1
      · exact (sound .h2).rephase phases.h2
      · exact (sound .h3).rephase phases.h3, id, id, id⟩

/-- Settles O55: each operation keeps each range law (`rangesKept`), and so does each step. -/
theorem everyStepKeepsTheRanges : Obligations.EveryStepKeepsTheRanges := by
  intro s t stepped
  have kept := (rangesKept s).step (fun _ hs => hs.trans ⟨id, id, id, id, id⟩) (.refl s) stepped
  exact ⟨kept.links, kept.fronts, kept.library, kept.sites, kept.heads⟩

end Sys2Proof.Machine

end

section
/-! The laws of sites, zones and users taken apart: the law of claims, with one head exempt while its
no-wait claim passes the queue, and what an operation leaves of each law. -/

namespace Sys2Proof.Machine

variable {s t u : State} {a : Option Head}

/-! ### The parts of the laws -/

/-- The law of the claim queue. The head of a no-wait claim that passes the queue (R68) is IDLE with an
entry. -/
structure QueueLaw (a : Option Head) (s : State) : Prop where
  once : (s.queue.map (·.head)).Nodup
  waiting : ∀ h : Head, a ≠ some h → ((s.monitor h).state = .waiting ↔ h ∈ s.queue.map (·.head))
  arrival : ∀ h : Head, a = some h → (s.monitor h).state ≠ .waiting ∧
    (h ∈ s.queue.map (·.head) → (s.monitor h).state = .idle)
  bypass : ∀ e ∈ s.queue, e.bypass ≤ s.board.bypassLimit

/-- The law of claims and sites without what it says of the board and of ESTOP. -/
structure ClaimLaw (a : Option Head) (s : State) : Prop extends QueueLaw a s where
  heads : HeadsSound s
  claimed : ∀ n h, s.claimedBy n h ↔ ((s.monitor h).state = .armed ∧ s.claims h n)
  pressing : ∀ n h, s.pressedBy n h ↔ ((s.monitor h).state.inStroke = true ∧ s.claims h n)

/-- Claims and strokes are there on an OPEN board with ESTOP released alone (R44, R45, R83). -/
structure OpenLaw (s : State) : Prop where
  waiting : s.queue ≠ [] → s.board.state = .isOpen ∧ s.estop = false
  active : ∀ h : Head, (s.monitor h).state.active = true →
    s.board.state = .isOpen ∧ s.estop = false

/-- No site is defined without a board (R42). -/
def SitesOnBoard (s : State) : Prop := s.board.state = .noBoard → ∀ n, s.site n = none

/-- What the law of zones adds to that of sites (R64). -/
structure ZonesHeld (s : State) : Prop where
  held : ∀ h c, (s.monitor h).state.active = true → (s.monitor h).claim = some c →
    ∀ z, s.holder z = some h ↔ z ∈ s.keepOut c.site
  free : ∀ h, (s.monitor h).state = .idle ∨ (s.monitor h).state = .waiting →
    ∀ z, s.holder z ≠ some h

/-- What the law of users adds to that of sites (R28). -/
structure UsersCounted (s : State) : Prop where
  library : LibrarySound s
  users : ∀ i, (s.typeSlot i).users = s.monitors.toList.countP (·.uses i)
  copies : ∀ h c w, (s.monitor h).state.active = true → (s.monitor h).claim = some c →
    (s.monitor h).copy = some w → s.typeAt c.site = some w.typeNo
  named : ∀ n i, s.typeAt n = some i → (s.typeSlot i).state ≠ .absent

theorem siteLaw_iff : SiteLaw s ↔ ClaimLaw none s ∧ OpenLaw s ∧ SitesOnBoard s := by
  constructor
  · intro law
    exact ⟨⟨⟨law.once, fun h _ => law.waiting h, nofun, law.bypass⟩, law.heads, law.claimed,
      law.pressing⟩, ⟨law.waitingOpen, law.activeOpen⟩, law.undefined⟩
  · rintro ⟨claims, opens, board⟩
    exact { heads := claims.heads, once := claims.once
            waiting := fun h => claims.waiting h (by simp)
            bypass := claims.bypass, waitingOpen := opens.waiting, activeOpen := opens.active
            claimed := claims.claimed, pressing := claims.pressing, undefined := board }

theorem zoneLaw_iff : ZoneLaw s ↔ SiteLaw s ∧ ZonesHeld s :=
  ⟨fun law => ⟨law.toSiteLaw, law.held, law.free⟩,
    fun ⟨sites, zones⟩ => { toSiteLaw := sites, held := zones.held, free := zones.free }⟩

theorem userLaw_iff : UserLaw s ↔ SiteLaw s ∧ UsersCounted s :=
  ⟨fun law => ⟨law.toSiteLaw, law.library, law.users, law.copies, law.named⟩,
    fun ⟨sites, users⟩ => { toSiteLaw := sites, library := users.library, users := users.users
                            copies := users.copies, named := users.named }⟩

/-- A head without a granted claim. -/
def HeadState.free (st : HeadState) : Prop := st = .idle ∨ st = .waiting

theorem HeadState.free.quiet {st : HeadState} (free : st.free) :
    st ≠ .armed ∧ st.inStroke = false ∧ st.active = false := by
  obtain rfl | rfl := free <;> exact ⟨nofun, rfl, rfl⟩

/-- A head with an entry in the queue is WAITING, or IDLE behind its own no-wait claim. -/
theorem ClaimLaw.queued (law : ClaimLaw a s) {h : Head} (queued : h ∈ s.queue.map (·.head)) :
    (s.monitor h).state.free := by
  by_cases arriving : a = some h
  · exact .inl ((law.arrival h arriving).2 queued)
  · exact .inr ((law.waiting h arriving).2 queued)

theorem ClaimLaw.not_queued (law : ClaimLaw a s) {h : Head}
    (active : (s.monitor h).state.active = true) : h ∉ s.queue.map (·.head) := fun queued => by
  simp [(law.queued queued).quiet] at active

/-- The site of an ARMED head's claim is CLAIMED by it (R49). -/
theorem ClaimLaw.site_of_armed (law : ClaimLaw a s) {h : Head} {c : Claim}
    (armed : (s.monitor h).state = .armed) (claim : (s.monitor h).claim = some c) :
    ∃ e g, s.site c.site = some e ∧ e.state = .claimed h g :=
  (law.claimed c.site h).2 ⟨armed, c, claim, rfl⟩

/-- The site of the claim of a head in a stroke is PRESSING under it (R49). -/
theorem ClaimLaw.site_of_inStroke (law : ClaimLaw a s) {h : Head} {c : Claim}
    (inStroke : (s.monitor h).state.inStroke = true) (claim : (s.monitor h).claim = some c) :
    ∃ e g, s.site c.site = some e ∧ e.state = .pressing h g :=
  (law.pressing c.site h).2 ⟨inStroke, c, claim, rfl⟩

/-- A site state without a holder. -/
def SiteState.unheld (st : SiteState) : Prop := ∀ h g, st ≠ .claimed h g ∧ st ≠ .pressing h g

/-- A head ARMED or in a stroke has its claim on a site that it holds. -/
theorem ClaimLaw.not_unheld (law : ClaimLaw a s) {h : Head} {c : Claim}
    (active : (s.monitor h).state.active = true) (claim : (s.monitor h).claim = some c)
    {e : SiteEntry} (site : s.site c.site = some e) : ¬ e.state.unheld := fun unheld => by
  obtain armed | inStroke := (HeadState.active_iff _).1 active
  · obtain ⟨e', g, site', held⟩ := law.site_of_armed armed claim
    cases site.symm.trans site'
    exact (unheld h g).1 held
  · obtain ⟨e', g, site', held⟩ := law.site_of_inStroke inStroke claim
    cases site.symm.trans site'
    exact (unheld h g).2 held

theorem State.not_claimedBy_of_unheld {n : Fin 96} (unheld : ∀ e, s.site n = some e → e.state.unheld)
    (h : Head) : ¬ s.claimedBy n h := fun ⟨e, g, site, held⟩ => (unheld e site h g).1 held

theorem State.not_pressedBy_of_unheld {n : Fin 96} (unheld : ∀ e, s.site n = some e → e.state.unheld)
    (h : Head) : ¬ s.pressedBy n h := fun ⟨e, g, site, held⟩ => (unheld e site h g).2 held

/-! ### The relation of two states -/

/-- An operation leaves the law of claims, and keeps each other law that held before it. -/
structure LawsKept (a : Option Head) (s t : State) : Prop where
  claims : ClaimLaw a t
  opens : OpenLaw s → OpenLaw t
  board : SitesOnBoard s → SitesOnBoard t
  zones : ZonesHeld s → ZonesHeld t
  users : UsersCounted s → UsersCounted t

namespace LawsKept

protected theorem refl (law : ClaimLaw a s) : LawsKept a s s := ⟨law, id, id, id, id⟩

protected theorem trans {b : Option Head} (first : LawsKept b s t) (second : LawsKept a t u) :
    LawsKept a s u where
  claims := second.claims
  opens := second.opens ∘ first.opens
  board := second.board ∘ first.board
  zones := second.zones ∘ first.zones
  users := second.users ∘ first.users

end LawsKept

/-! ### Updates that leave the granted claims as they are -/

/-- States of the same standing: the laws do not tell the stroke states apart. -/
def HeadState.alike (st st' : HeadState) : Prop :=
  st' = st ∨ st'.inStroke = true ∧ st.inStroke = true

/-- Two states with the same granted claims, on the same sites and types: they may differ in the queue,
in the heads without one, and in how far a stroke has come. -/
structure SameGrants (s t : State) : Prop where
  monitor : ∀ h, ((t.monitor h).claim = (s.monitor h).claim ∧
      (t.monitor h).copy = (s.monitor h).copy ∧ (s.monitor h).state.alike (t.monitor h).state) ∨
    (s.monitor h).state.active = false ∧ (t.monitor h).state.active = false ∧
      ((t.monitor h).state.free → (s.monitor h).state.free ∨ ∀ z, t.holder z ≠ some h)
  typeSlot : ∀ i, t.typeSlot i = s.typeSlot i
  site : ∀ n, t.site n = s.site n
  holder : ∀ z h, t.holder z = some h → s.holder z = some h
  kept : ∀ z h, (s.monitor h).state.active = true → s.holder z = some h → t.holder z = some h
  board : t.board = s.board
  estop : t.estop = s.estop

theorem HeadState.alike.standing {st st' : HeadState} (same : st.alike st') :
    (st' = .armed ↔ st = .armed) ∧ (st' = .waiting ↔ st = .waiting) ∧ (st' = .idle ↔ st = .idle) ∧
      st'.inStroke = st.inStroke ∧ st'.active = st.active := by
  obtain rfl | ⟨stroke', stroke⟩ := same
  · simp
  · obtain ⟨idle, waiting, armed, -⟩ := HeadSound.not_idle_of_inStroke stroke
    obtain ⟨idle', waiting', armed', -⟩ := HeadSound.not_idle_of_inStroke stroke'
    simp [HeadState.active, idle, idle', waiting, waiting', armed, armed', stroke, stroke']

namespace SameGrants

variable (same : SameGrants s t)
include same

theorem armed (h : Head) : (t.monitor h).state = .armed ↔ (s.monitor h).state = .armed := by
  obtain ⟨-, -, alike⟩ | ⟨quiet, quiet', -⟩ := same.monitor h
  · exact alike.standing.1
  · exact iff_of_false (fun st => by rw [st] at quiet'; cases quiet')
      fun st => by rw [st] at quiet; cases quiet

theorem active (h : Head) : (t.monitor h).state.active = (s.monitor h).state.active := by
  obtain ⟨-, -, alike⟩ | ⟨quiet, quiet', -⟩ := same.monitor h
  · exact alike.standing.2.2.2.2
  · exact quiet'.trans quiet.symm

theorem inStroke (h : Head) : (t.monitor h).state.inStroke = (s.monitor h).state.inStroke := by
  obtain ⟨-, -, alike⟩ | ⟨quiet, quiet', -⟩ := same.monitor h
  · exact alike.standing.2.2.2.1
  · rw [HeadState.active, Bool.or_eq_false_iff] at quiet quiet'
    exact quiet'.2.trans quiet.2.symm

/-- The claim and the working copy of a head with a granted claim are the same. -/
theorem held {h : Head} (active : (s.monitor h).state.active = true) :
    (t.monitor h).claim = (s.monitor h).claim ∧ (t.monitor h).copy = (s.monitor h).copy := by
  obtain ⟨claim, copy, -⟩ | ⟨quiet, -⟩ := same.monitor h
  · exact ⟨claim, copy⟩
  · rw [quiet] at active; cases active

theorem claims {h : Head} (active : (s.monitor h).state.active = true) (n : Fin 96) :
    t.claims h n ↔ s.claims h n := by
  rw [State.claims_iff, State.claims_iff, (same.held active).1]

theorem uses (h : Head) (i : Fin 48) : (t.monitor h).uses i = (s.monitor h).uses i := by
  rw [Monitor.uses, Monitor.uses, same.active]
  cases active : (s.monitor h).state.active with
  | false => rfl
  | true => rw [(same.held active).2]

end SameGrants

/-- Counts over the heads agree where each head's part does. -/
theorem PerHead.countP_congr {α : Type} {p q : PerHead α} {f g : α → Bool}
    (each : ∀ h, f (p.get h) = g (q.get h)) : p.toList.countP f = q.toList.countP g := by
  have h0 := each .h0
  have h1 := each .h1
  have h2 := each .h2
  have h3 := each .h3
  simp only [PerHead.get] at h0 h1 h2 h3
  simp [PerHead.toList, List.countP_cons, h0, h1, h2, h3]

/-- With the same granted claims the laws stay, where the queue has its law. -/
theorem LawsKept.of_grants {b : Option Head} (law : ClaimLaw a s) (same : SameGrants s t)
    (heads : HeadsSound t) (queue : QueueLaw b t)
    (opens : t.queue ≠ [] → s.queue ≠ [] ∨ s.board.state = .isOpen ∧ s.estop = false) :
    LawsKept b s t := by
  refine ⟨{ toQueueLaw := queue, heads := heads, claimed := fun n h => ?_, pressing := fun n h => ?_ },
    fun ⟨waiting, active⟩ => ⟨fun some => ?_, fun h st => ?_⟩, fun closed noBoard n => ?_,
    fun ⟨held, free⟩ => ⟨fun h c active claim z => ?_, fun h st z => ?_⟩,
    fun ⟨library, users, copies, named⟩ => ⟨fun i => same.typeSlot i ▸ library i, fun i => ?_,
      fun h c w active claim copy => ?_, fun n i site => ?_⟩⟩
  case refine_1 =>
    rw [State.claimedBy_iff, same.site, ← State.claimedBy_iff, law.claimed, same.armed]
    exact and_congr_right fun armed => (same.claims ((HeadState.active_iff _).2 (.inl armed)) n).symm
  case refine_2 =>
    rw [State.pressedBy_iff, same.site, ← State.pressedBy_iff, law.pressing, same.inStroke]
    exact and_congr_right fun stroke => (same.claims ((HeadState.active_iff _).2 (.inr stroke)) n).symm
  case refine_3 =>
    rw [same.board, same.estop]
    exact (opens some).elim waiting id
  case refine_4 =>
    rw [same.board, same.estop]
    exact active h (same.active h ▸ st)
  case refine_5 =>
    rw [same.site]
    exact closed (same.board ▸ noBoard) n
  case refine_6 =>
    rw [same.active] at active
    rw [State.keepOut, same.site]
    refine .trans ⟨same.holder z h, same.kept z h active⟩ ?_
    exact held h c active ((same.held active).1 ▸ claim) z
  case refine_7 =>
    obtain ⟨-, -, alike⟩ | ⟨-, -, was⟩ := same.monitor h
    · obtain ⟨-, waiting, idle, -⟩ := alike.standing
      rw [idle, waiting] at st
      exact mt (same.holder z h) (free h st z)
    · obtain was | gone := was st
      · exact mt (same.holder z h) (free h was z)
      · exact gone z
  case refine_8 =>
    rw [same.typeSlot, users i]
    exact PerHead.countP_congr fun h => (same.uses h i).symm
  case refine_9 =>
    rw [same.active] at active
    obtain ⟨claim', copy'⟩ := same.held active
    rw [State.typeAt, same.site]
    exact copies h c w active (claim' ▸ claim) (copy' ▸ copy)
  case refine_10 =>
    rw [same.typeSlot]
    exact named n i (by rwa [State.typeAt, same.site] at site)

/-- Two states with the same claims, granted and waiting, on the same sites, types and zones. -/
structure SameClaims (s t : State) : Prop where
  queue : t.queue = s.queue
  monitor : ∀ h, (t.monitor h).claim = (s.monitor h).claim ∧
    (t.monitor h).copy = (s.monitor h).copy ∧ (s.monitor h).state.alike (t.monitor h).state
  library : t.library = s.library
  sites : t.sites = s.sites
  zones : t.zones = s.zones
  board : t.board = s.board
  estop : t.estop = s.estop

namespace SameClaims

theorem of_monitors (queue : t.queue = s.queue) (monitors : t.monitors = s.monitors)
    (library : t.library = s.library) (sites : t.sites = s.sites) (zones : t.zones = s.zones)
    (board : t.board = s.board) (estop : t.estop = s.estop) : SameClaims s t where
  queue := queue
  monitor := fun h => by simp [State.monitor, monitors, HeadState.alike]
  library := library
  sites := sites
  zones := zones
  board := board
  estop := estop

theorem grants (same : SameClaims s t) : SameGrants s t where
  monitor := fun h => .inl (same.monitor h)
  typeSlot := fun i => by rw [State.typeSlot, same.library]; rfl
  site := fun n => by rw [State.site, same.sites]; rfl
  holder := fun z h held => by rwa [State.holder, same.zones] at held
  kept := fun z h _ held => by rwa [State.holder, same.zones]
  board := same.board
  estop := same.estop

end SameClaims

theorem LawsKept.of_same (law : ClaimLaw a s) (same : SameClaims s t) (heads : HeadsSound t) :
    LawsKept a s t := by
  refine .of_grants law same.grants heads ⟨same.queue ▸ law.once, fun h other => ?_, fun h own => ?_,
    ?_⟩ fun some => .inl (same.queue ▸ some)
  · obtain ⟨-, waiting, -⟩ := (same.monitor h).2.2.standing
    rw [waiting, same.queue, law.waiting h other]
  · obtain ⟨-, waiting, idle, -⟩ := (same.monitor h).2.2.standing
    rw [ne_eq, waiting, idle, same.queue]
    exact law.arrival h own
  · rw [same.queue, same.board]
    exact law.bypass

end Sys2Proof.Machine

end

section
/-! The operations under the laws of claims, zones and users, continued: drops, the end of a granted
claim, the grant, and the changes of types and sites. -/

namespace Sys2Proof.Machine

variable {s t u : State} {a : Option Head}

/-! ### Drops (R80) -/

theorem mem_heads_filter {q : List QueueEntry} {p : Head → Bool} {h : Head} :
    h ∈ (q.filter fun e => p e.head).map (·.head) ↔ h ∈ q.map (·.head) ∧ p h = true := by
  simp only [List.mem_map, List.mem_filter]
  constructor
  · rintro ⟨e, ⟨mem, kept⟩, rfl⟩
    exact ⟨⟨e, mem, rfl⟩, kept⟩
  · rintro ⟨⟨e, mem, rfl⟩, kept⟩
    exact ⟨e, ⟨mem, kept⟩, rfl⟩

/-- Drops of waiting claims (R80). -/
theorem LawsKept.dropAll (law : ClaimLaw a s) (b : Option Head) (r : ClaimReason)
    {es : List QueueEntry} (queued : ∀ e ∈ es, e.head ∈ s.queue.map (·.head)) :
    LawsKept a s (s.dropAll b r es) := by
  have split (h : Head) :
      ((s.dropAll b r es).monitor h = Monitor.idle ∧ es.any (·.head == h) = true ∧
        (s.monitor h).state.free) ∨
      ((s.dropAll b r es).monitor h = s.monitor h ∧ es.any (·.head == h) = false) := by
    cases dropped : es.any (·.head == h) with
    | false => exact .inr ⟨by rw [State.dropAll_monitor, dropped, if_neg Bool.false_ne_true], rfl⟩
    | true =>
      obtain ⟨e, mem, own⟩ := List.any_eq_true.1 dropped
      have waits := queued e mem
      rw [eq_of_beq own] at waits
      exact .inl ⟨by rw [State.dropAll_monitor, dropped, if_pos rfl], rfl, law.queued waits⟩
  have left (h : Head) : h ∈ (s.dropAll b r es).queue.map (·.head) ↔
      h ∈ s.queue.map (·.head) ∧ es.any (·.head == h) = false := by
    rw [State.dropAll_queue, mem_heads_filter (p := fun h => !es.any (·.head == h)),
      Bool.not_eq_true']
  refine .of_grants law ⟨fun h => ?_, fun i => by simp [State.typeSlot], fun n => by simp [State.site],
    fun z h => by simp [State.holder], fun z h _ => by simp [State.holder], by simp, by simp⟩
    ((RangesKept.dropAll b r es).heads law.heads)
    ⟨?_, fun h other => ?_, fun h own => ?_, fun e mem => ?_⟩ fun some => .inl fun empty => ?_
  case refine_1 =>
    obtain ⟨idle, -, free⟩ | ⟨kept, -⟩ := split h
    · exact .inr ⟨free.quiet.2.2, by rw [idle]; rfl, fun _ => .inl free⟩
    · exact .inl (by simp [kept, HeadState.alike])
  case refine_2 => exact State.dropAll_queue .. ▸ law.once.sublist (List.filter_sublist.map _)
  case refine_3 =>
    rw [left]
    obtain ⟨idle, dropped, -⟩ | ⟨kept, not⟩ := split h
    · simp [idle, Monitor.idle, dropped]
    · simp [kept, not, law.waiting h other]
  case refine_4 =>
    rw [left]
    obtain ⟨idle, dropped, -⟩ | ⟨kept, not⟩ := split h
    · simp [idle, Monitor.idle]
    · simpa [kept, not] using law.arrival h own
  case refine_5 =>
    rw [State.dropAll_board]
    exact law.bypass e (List.mem_of_mem_filter (State.dropAll_queue .. ▸ mem))
  case refine_6 => exact some (by rw [State.dropAll_queue, empty, List.filter_nil])

theorem LawsKept.dropEntry (law : ClaimLaw a s) (b : Option Head) (r : ClaimReason) {e : QueueEntry}
    (queued : e ∈ s.queue) : LawsKept a s (s.dropEntry b r e) :=
  LawsKept.dropAll law b r (es := [e]) (by simpa using ⟨e, queued, rfl⟩)

theorem LawsKept.dropWaiting (law : ClaimLaw a s) (b : Option Head) (r : ClaimReason)
    (p : QueueEntry → Bool) : LawsKept a s (s.dropAll b r (s.queue.filter p)) :=
  LawsKept.dropAll law b r fun _ mem => List.mem_map_of_mem (List.mem_of_mem_filter mem)

/-! ### The end of a granted claim (R57, R64, R77, R100, R136) -/

/-- A type's slot once a user is released (R28, R29). -/
def TypeSlot.release (slot : TypeSlot) : TypeSlot :=
  if slot.state = .draining ∧ slot.users = 1 then slot.drained
  else { slot with users := slot.users - 1 }

theorem TypeSlot.drained_users (slot : TypeSlot) : slot.drained.users = 0 := by
  obtain ⟨-, h⟩ | ⟨r, -, -, h⟩ | ⟨r, -, -, h⟩ :=
    TypeSlot.install_cases { slot with users := 0 } <;> rw [TypeSlot.drained, h] <;> rfl

theorem TypeSlot.drained_present {slot : TypeSlot} (present : slot.state ≠ .absent) :
    slot.drained.state ≠ .absent := by
  obtain ⟨-, h⟩ | ⟨r, -, -, h⟩ | ⟨r, -, -, h⟩ :=
    TypeSlot.install_cases { slot with users := 0 } <;> rw [TypeSlot.drained, h]
  · exact present
  · exact nofun
  · exact nofun

@[simp] theorem TypeSlot.release_users (slot : TypeSlot) : slot.release.users = slot.users - 1 := by
  unfold TypeSlot.release
  split
  case isTrue last => rw [slot.drained_users, last.2]
  case isFalse => rfl

theorem TypeSlot.release_present {slot : TypeSlot} (present : slot.state ≠ .absent) :
    slot.release.state ≠ .absent := by
  unfold TypeSlot.release
  split
  · exact TypeSlot.drained_present present
  · exact present

theorem SlotSound.release {slot : TypeSlot} (sound : SlotSound slot) : SlotSound slot.release := by
  unfold TypeSlot.release
  split
  case isTrue last => exact sound.install last.1 0
  case isFalse other =>
    refine sound.withUsers (fun absent => by rw [(sound.absent absent).1]) fun draining => ?_
    have used := sound.draining draining
    have : slot.users ≠ 1 := fun one => other ⟨draining, one⟩
    omega

/-- The release of a user: its slot, and the drops where the type is then BROKEN. -/
theorem State.releaseUser_eq (s : State) (i : Fin 48) :
    (s.releaseUser i).state = s.setType i (s.typeSlot i).release ∨
      (s.releaseUser i).state = (s.setType i (s.typeSlot i).release).dropBroken none i := by
  obtain ⟨steady, h⟩ | ⟨draining, one, ⟨-, h⟩ | ⟨-, h⟩⟩ := s.releaseUser_cases i <;> rw [h]
  · exact .inl (by rw [TypeSlot.release, if_neg steady])
  · exact .inl (by rw [TypeSlot.release, if_pos ⟨draining, one⟩])
  · exact .inr (by rw [TypeSlot.release, if_pos ⟨draining, one⟩])

/-- What the end of a head's granted claim or stroke leaves of the rest: its site without a holder, its
zones its own or free, its user released. -/
structure EndsClaim (s u : State) (h : Head) (c : Claim) (w : WorkingCopy) : Prop where
  queue : u.queue = s.queue
  monitor : ∀ j, j ≠ h → u.monitor j = s.monitor j
  ended : (u.monitor h).state = .idle ∨ (u.monitor h).state.unacknowledged = true
  sites : ∀ n, n ≠ c.site → u.site n = s.site n
  site : ∀ e, s.site c.site = some e → ∃ e', u.site c.site = some e' ∧ e'.state.unheld ∧
    e'.typeNo = e.typeNo ∧ e'.keepOut = e.keepOut
  holder : (∀ z, u.holder z = (s.freeZones h).holder z) ∨
    (u.monitor h).state ≠ .idle ∧ ∀ z, u.holder z = s.holder z
  typeSlots : ∀ i, i ≠ w.typeNo → u.typeSlot i = s.typeSlot i
  typeSlot : u.typeSlot w.typeNo = (s.typeSlot w.typeNo).release
  board : u.board = s.board
  estop : u.estop = s.estop

theorem EndsClaim.library {h : Head} {c : Claim} {w : WorkingCopy} (ends : EndsClaim s u h c w)
    (sound : LibrarySound s) : LibrarySound u := fun i => by
  by_cases own : i = w.typeNo
  · exact own ▸ ends.typeSlot ▸ (sound w.typeNo).release
  · exact ends.typeSlots i own ▸ sound i

/-- A count over the heads when one of them changes. -/
theorem PerHead.countP_set {α : Type} (p : PerHead α) (h : Head) (m : α) (f : α → Bool) :
    (p.set h m).toList.countP f + (f (p.get h)).toNat = p.toList.countP f + (f m).toNat := by
  cases h <;> simp only [PerHead.toList, PerHead.set, PerHead.get, List.countP_cons,
    List.countP_nil, Bool.toNat, Bool.cond_eq_ite] <;> omega

theorem LawsKept.of_ends (law : ClaimLaw a s) {h : Head} {c : Claim} {w : WorkingCopy}
    (active : (s.monitor h).state.active = true) (claim : (s.monitor h).claim = some c)
    (copy : (s.monitor h).copy = some w) (ends : EndsClaim s u h c w) (heads : HeadsSound u) :
    LawsKept a s u := by
  have notQueued := law.not_queued active
  have quiet : (u.monitor h).state.active = false ∧ (u.monitor h).state ≠ .waiting := by
    obtain idle | ended := ends.ended
    · rw [idle]; exact ⟨rfl, nofun⟩
    · obtain st | st := (HeadState.unacknowledged_iff _).1 ended <;> rw [st] <;> exact ⟨rfl, nofun⟩
  obtain ⟨inactive, notWaiting⟩ := quiet
  obtain ⟨notArmed, notStroke⟩ : (u.monitor h).state ≠ .armed ∧
      (u.monitor h).state.inStroke = false := by
    rw [HeadState.active, Bool.or_eq_false_iff] at inactive
    exact ⟨by simpa using inactive.1, inactive.2⟩
  have kept (j : Head) (st : (u.monitor j).state.active = true) : u.monitor j = s.monitor j :=
    ends.monitor j fun same => by rw [same, inactive] at st; cases st
  have apart (j : Head) (other : j ≠ h) (st : (s.monitor j).state.active = true) {d : Claim}
      (claims : (s.monitor j).claim = some d) : d.site ≠ c.site := fun same => by
    obtain armed | inStroke := (HeadState.active_iff _).1 st
    · have mine := (law.claimed d.site j).2 ⟨armed, d, claims, rfl⟩
      obtain armed' | inStroke' := (HeadState.active_iff _).1 active
      · exact other (State.claimedBy_unique mine
          ((law.claimed d.site h).2 ⟨armed', c, claim, same.symm⟩))
      · exact State.claimedBy_not_pressedBy mine
          ((law.pressing d.site h).2 ⟨inStroke', c, claim, same.symm⟩)
    · have mine := (law.pressing d.site j).2 ⟨inStroke, d, claims, rfl⟩
      obtain armed' | inStroke' := (HeadState.active_iff _).1 active
      · exact State.claimedBy_not_pressedBy
          ((law.claimed d.site h).2 ⟨armed', c, claim, same.symm⟩) mine
      · exact other (State.pressedBy_unique mine
          ((law.pressing d.site h).2 ⟨inStroke', c, claim, same.symm⟩))
  obtain ⟨e, site, held⟩ : ∃ e, s.site c.site = some e ∧ ¬ e.state.unheld := by
    obtain armed | inStroke := (HeadState.active_iff _).1 active
    · obtain ⟨e, g, site, -⟩ := law.site_of_armed armed claim
      exact ⟨e, site, law.not_unheld active claim site⟩
    · obtain ⟨e, g, site, -⟩ := law.site_of_inStroke inStroke claim
      exact ⟨e, site, law.not_unheld active claim site⟩
  obtain ⟨e', site', unheld, typeNo, keepOut⟩ := ends.site e site
  have typeAt (n : Fin 96) : u.typeAt n = s.typeAt n := by
    by_cases own : n = c.site
    · simp [own, State.typeAt, site, site', typeNo]
    · rw [State.typeAt, ends.sites n own]; rfl
  have keepOuts (n : Fin 96) : u.keepOut n = s.keepOut n := by
    by_cases own : n = c.site
    · simp [own, State.keepOut, site, site', keepOut]
    · rw [State.keepOut, ends.sites n own]; rfl
  have notClaimed := State.not_claimedBy_of_unheld (s := u) (n := c.site) fun x hx => by
    cases site'.symm.trans hx; exact unheld
  have notPressed := State.not_pressedBy_of_unheld (s := u) (n := c.site) fun x hx => by
    cases site'.symm.trans hx; exact unheld
  have claimsOwn (n : Fin 96) : s.claims h n ↔ n = c.site := by
    rw [State.claims_iff, claim, Option.map_some, Option.some_inj, eq_comm]
  refine ⟨⟨⟨ends.queue ▸ law.once, fun j other => ?_, fun j own => ?_, ?_⟩, heads, fun n j => ?_,
    fun n j => ?_⟩, fun ⟨waiting, act⟩ => ⟨?_, fun j st => ?_⟩, fun closed noBoard n => ?_,
    fun ⟨held, free⟩ => ⟨fun j d st claims z => ?_, fun j st z => ?_⟩,
    fun users => ⟨ends.library users.library, fun i => ?_, fun j d v st claims copies => ?_,
      fun n i named => ?_⟩⟩
  case refine_1 =>
    rw [ends.queue]
    by_cases own : j = h
    · exact own ▸ iff_of_false notWaiting notQueued
    · rw [ends.monitor j own, law.waiting j other]
  case refine_2 =>
    rw [ends.queue]
    by_cases same : j = h
    · exact same ▸ ⟨notWaiting, fun queued => absurd queued notQueued⟩
    · rw [ends.monitor j same]
      exact law.arrival j own
  case refine_3 =>
    rw [ends.queue, ends.board]
    exact law.bypass
  case refine_4 =>
    by_cases own : n = c.site
    · refine own ▸ iff_of_false (notClaimed j) fun ⟨armed, d, claims, same⟩ => ?_
      have other : j ≠ h := fun same => notArmed (same ▸ armed)
      rw [ends.monitor j other] at armed claims
      exact apart j other ((HeadState.active_iff _).2 (.inl armed)) claims same
    · rw [State.claimedBy, ends.sites n own, ← State.claimedBy, law.claimed]
      by_cases same : j = h
      · subst same
        exact iff_of_false (fun ⟨_, claims⟩ => own ((claimsOwn n).1 claims)) fun ⟨armed, _⟩ =>
          notArmed armed
      · rw [State.claims, State.claims, ends.monitor j same]
  case refine_5 =>
    by_cases own : n = c.site
    · refine own ▸ iff_of_false (notPressed j) fun ⟨stroke, d, claims, same⟩ => ?_
      have other : j ≠ h := fun same => by simp [same, notStroke] at stroke
      rw [ends.monitor j other] at stroke claims
      exact apart j other ((HeadState.active_iff _).2 (.inr stroke)) claims same
    · rw [State.pressedBy, ends.sites n own, ← State.pressedBy, law.pressing]
      by_cases same : j = h
      · subst same
        exact iff_of_false (fun ⟨_, claims⟩ => own ((claimsOwn n).1 claims)) fun ⟨stroke, _⟩ => by
          simp [notStroke] at stroke
      · rw [State.claims, State.claims, ends.monitor j same]
  case refine_6 =>
    rw [ends.queue, ends.board, ends.estop]
    exact waiting
  case refine_7 =>
    rw [ends.board, ends.estop]
    rw [kept j st] at st
    exact act j st
  case refine_8 =>
    have := closed (ends.board ▸ noBoard) c.site
    simp [site] at this
  case refine_9 =>
    have other : j ≠ h := fun same => by simp [same, inactive] at st
    rw [kept j st] at claims
    rw [kept j st] at st
    rw [keepOuts, ← held j d st claims]
    obtain freed | ⟨-, same⟩ := ends.holder
    · rw [freed, State.freeZones_holder]
      split
      case isTrue mine => simp [mine, other.symm]
      case isFalse => rfl
    · rw [same]
  case refine_10 =>
    by_cases same : j = h
    · subst same
      obtain freed | ⟨busy, -⟩ := ends.holder
      · rw [freed, State.freeZones_holder]
        split
        · exact nofun
        · assumption
      · exact absurd (st.resolve_right notWaiting) busy
    · rw [ends.monitor j same] at st
      obtain freed | ⟨-, kept⟩ := ends.holder
      · rw [freed, State.freeZones_holder]
        split
        · exact nofun
        · exact free j st z
      · rw [kept]
        exact free j st z
  case refine_11 =>
    have monitors : u.monitors = s.monitors.set h (u.monitor h) := PerHead.ext_get fun j => by
      rw [PerHead.get_set]
      split
      case isTrue same => rw [same]; rfl
      case isFalse other => exact ends.monitor j other
    have count := PerHead.countP_set s.monitors h (u.monitor h) (·.uses i)
    have before : (s.monitors.get h).uses i = decide (i = w.typeNo) := by
      change (s.monitor h).uses i = _
      simp [Monitor.uses, active, copy, eq_comm, Bool.beq_eq_decide_eq]
    have after : (u.monitor h).uses i = false := by rw [Monitor.uses, inactive, Bool.false_and]
    rw [before, after, ← monitors, ← users.users i] at count
    by_cases own : i = w.typeNo
    · subst own
      rw [ends.typeSlot, TypeSlot.release_users]
      simp at count
      omega
    · rw [ends.typeSlots i own]
      simpa [own] using count.symm
  case refine_12 =>
    rw [kept j st] at claims copies
    rw [kept j st] at st
    rw [typeAt]
    exact users.copies j d v st claims copies
  case refine_13 =>
    rw [typeAt] at named
    have present := users.named n i named
    by_cases own : i = w.typeNo
    · subst own
      rw [ends.typeSlot]
      exact TypeSlot.release_present present
    · rwa [ends.typeSlots i own]

end Sys2Proof.Machine

end

section
/-! The ends of claims and strokes under the laws of claims, zones and users. -/

namespace Sys2Proof.Machine

variable {s t u : State} {a : Option Head}

/-! ### Sites without a holder -/

theorem GrantFrom.toState_unheld (g : GrantFrom) : g.toState.unheld := by
  cases g <;> exact fun _ _ => ⟨nofun, nofun⟩

theorem SiteEntry.unclaim_unheld {e : SiteEntry} {h : Head} {g : GrantFrom}
    (claimed : e.state = .claimed h g) : e.unclaim.state.unheld := by
  rw [SiteEntry.unclaim, claimed]
  exact g.toState_unheld

theorem SiteEntry.fail_unheld (e : SiteEntry) (last : LastOutcome) : (e.fail last).state.unheld := by
  unfold SiteEntry.fail
  simp only
  split <;> exact fun _ _ => ⟨nofun, nofun⟩

theorem SiteEntry.apply_unheld {e : SiteEntry} {h : Head} {g : GrantFrom}
    (pressing : e.state = .pressing h g) (o : Ending) : (e.apply o).state.unheld := by
  cases o with
  | pass depth =>
    rw [SiteEntry.apply_pass pressing]
    exact fun _ _ => ⟨nofun, nofun⟩
  | reject failures =>
    rw [SiteEntry.apply_reject pressing]
    exact e.fail_unheld _
  | abort cause contact =>
    rw [SiteEntry.apply_abort pressing]
    split
    · exact e.fail_unheld _
    · exact g.toState_unheld

/-! ### The release of the user (R28, R29) -/

/-- The end of a claim together with the release of its user, and the drops this may bring. -/
theorem LawsKept.releaseUser (law : ClaimLaw a s) {h : Head} {c : Claim} {w : WorkingCopy}
    (active : (s.monitor h).state.active = true) (claim : (s.monitor h).claim = some c)
    (copy : (s.monitor h).copy = some w)
    (ends : EndsClaim s (t.setType w.typeNo (t.typeSlot w.typeNo).release) h c w)
    (heads : HeadsSound t) : LawsKept a s (t.releaseUser w.typeNo).state := by
  have ended : LawsKept a s (t.setType w.typeNo (t.typeSlot w.typeNo).release) :=
    .of_ends law active claim copy ends fun j => by simpa using heads j
  obtain released | released := t.releaseUser_eq w.typeNo <;> rw [released]
  · exact ended
  · exact ended.trans (.dropWaiting ended.claims ..)

theorem LawsKept.of_monitors (law : ClaimLaw a s) (queue : t.queue = s.queue)
    (monitors : t.monitors = s.monitors) (library : t.library = s.library) (sites : t.sites = s.sites)
    (zones : t.zones = s.zones) (board : t.board = s.board) (estop : t.estop = s.estop) :
    LawsKept a s t :=
  .of_same law (.of_monitors queue monitors library sites zones board estop) fun h => by
    rw [State.monitor, monitors]; exact law.heads h

theorem LawsKept.setLink (law : ClaimLaw a s) (l : Link) (k : LinkState) :
    LawsKept a s (s.setLink l k) := by apply LawsKept.of_monitors law <;> simp

theorem LawsKept.event (law : ClaimLaw a s) (h : Head) (kind : Byte) (fields : List Byte) :
    LawsKept a s (s.event h kind fields) := .setLink law (.head h) _

theorem LawsKept.setFront (law : ClaimLaw a s) (h : Head) (f : FrontEnd) :
    LawsKept a s (s.setFront h f) := by apply LawsKept.of_monitors law <;> simp

/-! ### The end of an armed claim (R57, R77) -/

theorem State.toIdle_dropEntry (h : Head) (b : Option Head) (r : ClaimReason) (e : QueueEntry) :
    (s.dropEntry b r e).toIdle h = (s.toIdle h).dropEntry b r e := by
  have commute : ((s.leaveQueue e.head).setMonitor e.head .idle).toIdle h =
      ((s.toIdle h).leaveQueue e.head).setMonitor e.head .idle := by
    by_cases same : h = e.head
    · subst same; rfl
    · simp only [State.toIdle, State.setMonitor, State.leaveQueue,
        PerHead.set_comm s.monitors _ _ same]
  unfold State.dropEntry
  simp only
  split
  · exact commute
  · rw [← commute]; rfl

/-- Drops and the return of a head to IDLE, in either order. -/
theorem State.toIdle_dropAll (h : Head) (b : Option Head) (r : ClaimReason) (es : List QueueEntry) :
    (s.dropAll b r es).toIdle h = (s.toIdle h).dropAll b r es := by
  induction es generalizing s with
  | nil => rfl
  | cons e es ih => rw [State.dropAll_cons, ih, State.toIdle_dropEntry]; rfl

theorem State.toIdle_releaseUser (h : Head) (i : Fin 48) :
    ((s.releaseUser i).state).toIdle h = ((s.toIdle h).releaseUser i).state := by
  simp only [State.releaseUser, State.installType, State.dropBroken]
  rw [State.toIdle_typeSlot]
  split
  · simp only [State.setType_typeSlot_self]
    split
    · exact State.toIdle_dropAll ..
    · rfl
  · rfl

/-- An armed claim that ends, its head IDLE before the user is released. -/
theorem State.endArmed_eq {h : Head} {w : WorkingCopy} (copy : (s.monitor h).copy = some w) :
    s.endArmed h = ((((s.returnSite h).freeZones h).toIdle h).releaseUser w.typeNo).state := by
  have own : (((s.returnSite h).freeZones h).monitor h).copy = some w := by
    simpa [State.monitor] using copy
  rw [State.endArmed, State.releaseUserOf, own, State.toIdle_releaseUser]

theorem LawsKept.endArmed (law : ClaimLaw a s) {h : Head} (armed : (s.monitor h).state = .armed) :
    LawsKept a s (s.endArmed h) := by
  obtain ⟨claimed, copied⟩ := (law.heads h).claimed (by simp [armed]) (by simp [armed])
  obtain ⟨c, claim⟩ := Option.isSome_iff_exists.1 claimed
  obtain ⟨w, copy⟩ := Option.isSome_iff_exists.1 copied
  have active : (s.monitor h).state.active = true := (HeadState.active_iff _).2 (.inl armed)
  obtain ⟨e, g, site, held⟩ := law.site_of_armed armed claim
  rw [State.endArmed_eq copy, State.returnSite, claim]
  refine .releaseUser law active claim copy ?_ fun j => ?_
  · exact {
      queue := by simp
      monitor := fun j other => by simp [other]
      ended := .inl (by simp; rfl)
      sites := fun n other => by simp [other]
      site := fun e' site' => by
        cases site.symm.trans site'
        exact ⟨e.unclaim, by simp [site], SiteEntry.unclaim_unheld held, by simp, by simp⟩
      holder := .inl fun z => by
        rw [State.setType_holder, State.toIdle_holder, State.freeZones_holder,
          State.freeZones_holder, State.changeSite_holder]
      typeSlots := fun i other => by simp [other]
      typeSlot := by simp
      board := by simp
      estop := by simp }
  · rw [State.toIdle_monitor]
    split
    · exact .idle
    · simpa using law.heads j

theorem LawsKept.revoke (law : ClaimLaw a s) {h : Head} (armed : (s.monitor h).state = .armed)
    (r : ClaimReason) : LawsKept a s (s.revoke h r) := by
  have ended := LawsKept.endArmed law armed
  unfold State.revoke
  split
  · split
    · exact ended
    · exact ended.trans (.event ended.claims ..)
  · exact ended

/-! ### The end of a stroke (R100, R136) -/

theorem LawsKept.abortStroke (law : ClaimLaw a s) {h : Head}
    (inStroke : (s.monitor h).state.inStroke = true) {cause : Cause} {further : List Cause}
    (order : (cause :: further).Pairwise fun a b => a.code < b.code)
    (codes : ∀ d ∈ further, d.code ≤ 13) : LawsKept a s (s.abortStroke h cause further).state := by
  obtain ⟨c, w, k, claim, copy, stroke, -⟩ := (law.heads h).exists_stroke inStroke
  have active : (s.monitor h).state.active = true := (HeadState.active_iff _).2 (.inr inStroke)
  obtain ⟨e, g, site, held⟩ := law.site_of_inStroke inStroke claim
  have halted := (law.heads h).halt inStroke h claim copy k (s.front h).heldCount order codes
  rw [State.abortStroke_of claim copy stroke]
  have ended : LawsKept a s (((s.setMonitor h ((s.monitor h).halt h c w k (s.front h).heldCount cause
      further)).changeSite c.site
        (·.apply (.abort cause (s.monitor h).state.afterContact))).releaseUser w.typeNo).state := by
    refine .releaseUser law active claim copy ?_ fun j => ?_
    · exact {
        queue := by simp
        monitor := fun j other => by simp [other]
        ended := .inr (by simp [Monitor.halt, HeadState.unacknowledged])
        sites := fun n other => by simp [other]
        site := fun e' site' => by
          cases site.symm.trans site'
          exact ⟨_, by simp [site]; rfl, SiteEntry.apply_unheld held _, by simp, by simp⟩
        holder := .inr ⟨by simp [Monitor.halt], fun z => by simp⟩
        typeSlots := fun i other => by simp [other]
        typeSlot := by simp
        board := by simp
        estop := by simp }
    · simp only [State.changeSite_monitor, State.setMonitor_monitor]
      split
      · exact halted
      · exact law.heads j
  have told := ended.trans (.setFront ended.claims h (s.front h).restartTare)
  exact told.trans (.event told.claims ..)

/-- A verdict, as the operations it is made of (R100). -/
theorem State.giveVerdict_of {h : Head} {c : Claim} {w : WorkingCopy} {k : Stroke}
    (claim : (s.monitor h).claim = some c) (copy : (s.monitor h).copy = some w)
    (stroke : (s.monitor h).stroke = some k) :
    ∃ (r : PressRecord) (o : Ending) (kind : Byte) (fields : List Byte),
      (s.giveVerdict h).state = ((((((s.appendRecord r).setMonitor h { s.monitor h with
        state := .retract, permit := false, slot := false
        stroke := some (k.completed c w) }).changeSite c.site (·.apply o)).releaseUser
          w.typeNo).state).setFront h (s.front h).restartTare).event h kind fields := by
  unfold State.giveVerdict
  simp only
  split
  case h_1 claim' copy' stroke' =>
    cases claim.symm.trans claim'
    cases copy.symm.trans copy'
    cases stroke.symm.trans stroke'
    exact ⟨_, _, _, _, rfl⟩
  case h_2 other => exact absurd stroke (other c w k claim copy)

theorem LawsKept.giveVerdict (law : ClaimLaw a s) {h : Head}
    (inStroke : (s.monitor h).state.inStroke = true) : LawsKept a s (s.giveVerdict h).state := by
  obtain ⟨c, w, k, claim, copy, stroke, runs⟩ := (law.heads h).exists_stroke inStroke
  have active : (s.monitor h).state.active = true := (HeadState.active_iff _).2 (.inr inStroke)
  obtain ⟨e, g, site, held⟩ := law.site_of_inStroke inStroke claim
  obtain ⟨r, o, kind, fields, judged⟩ := State.giveVerdict_of claim copy stroke
  rw [judged]
  have ended : LawsKept a s ((((s.appendRecord r).setMonitor h { s.monitor h with
        state := .retract, permit := false, slot := false
        stroke := some (k.completed c w) }).changeSite c.site (·.apply o)).releaseUser
          w.typeNo).state := by
    refine .releaseUser law active claim copy ?_ fun j => ?_
    · exact {
        queue := by simp
        monitor := fun j other => by simp [other]
        ended := .inr (by simp [HeadState.unacknowledged])
        sites := fun n other => by simp [other]
        site := fun e' site' => by
          cases site.symm.trans site'
          exact ⟨_, by simp [site]; rfl, SiteEntry.apply_unheld held _, by simp, by simp⟩
        holder := .inr ⟨by simp, fun z => by simp⟩
        typeSlots := fun i other => by simp [other]
        typeSlot := by simp
        board := by simp
        estop := by simp }
    · simp only [State.changeSite_monitor, State.setMonitor_monitor]
      split
      · exact (law.heads h).retracted inStroke runs
      · simpa using law.heads j
  have told := ended.trans (.setFront ended.claims h (s.front h).restartTare)
  exact told.trans (.event told.claims ..)

/-! ### Samples and event causes (R93, R134, R138, R139) -/

/-- A head whose monitor changes and whose claim does not. -/
theorem LawsKept.setMonitor (law : ClaimLaw a s) (h : Head) {m : Monitor} (sound : HeadSound m)
    (claim : m.claim = (s.monitor h).claim) (copy : m.copy = (s.monitor h).copy)
    (alike : (s.monitor h).state.alike m.state) : LawsKept a s (s.setMonitor h m) := by
  refine .of_same law ⟨rfl, fun j => ?_, rfl, rfl, rfl, rfl, rfl⟩ fun j => ?_
  · rw [State.setMonitor_monitor]
    split
    case isTrue same => exact same ▸ ⟨claim, copy, alike⟩
    case isFalse => exact ⟨rfl, rfl, .inl rfl⟩
  · rw [State.setMonitor_monitor]
    split
    · exact sound
    · exact law.heads j

theorem LawsKept.concludeSample (law : ClaimLaw a s) {h : Head}
    (inStroke : (s.monitor h).state.inStroke = true) (r : TypeRecord) (restrike : Bool) (p : Progress)
    (rec : SampleRecord) : LawsKept a s (s.concludeSample h r restrike p rec).state := by
  unfold State.concludeSample
  split
  case h_1 c cs found =>
    refine .abortStroke law inStroke (found ▸ strokeCauses_pairwise ..) fun d later => ?_
    have code := strokeCauses_code_le d (found ▸ List.mem_cons_of_mem c later)
    omega
  case h_2 =>
    split
    · exact .giveVerdict law inStroke
    · exact .refl law

theorem LawsKept.strokeSample (law : ClaimLaw a s) {h : Head}
    (inStroke : (s.monitor h).state.inStroke = true) (rec : SampleRecord) :
    LawsKept a s (s.strokeSample h rec).state := by
  obtain ⟨c, w, k, claim, copy, stroke, runs⟩ := (law.heads h).exists_stroke inStroke
  rw [State.strokeSample_of claim copy stroke]
  obtain ⟨still, aborts⟩ := (k.countSample rec).progress_runs inStroke w.fields c.restrike rec
  obtain ⟨link, -, made⟩ := s.progressed_cases h c
    ((k.countSample rec).progress (s.monitor h).state w.fields c.restrike rec)
  have sound := (law.heads h).continued inStroke still (aborts.trans runs)
  have moved := LawsKept.setMonitor law h sound rfl rfl (.inr ⟨still, inStroke⟩)
  have progressed := moved.trans (.setLink moved.claims (.head h) link)
  rw [← made] at progressed
  exact progressed.trans (.concludeSample progressed.claims (by rw [made]; simpa using still) ..)

theorem LawsKept.joinCauses (law : ClaimLaw a s) (h : Head) {cs : List Cause}
    (codes : ∀ c ∈ cs, c.code ≤ 13) :
    LawsKept a s (s.setMonitor h ((s.monitor h).joinCauses cs)) := by
  have sound := (law.heads h).joinCauses codes
  obtain ⟨k, -, -, joined⟩ | ⟨-, kept⟩ := (s.monitor h).joinCauses_cases cs
  · rw [joined] at sound ⊢
    exact .setMonitor law h sound rfl rfl (.inl rfl)
  · rw [kept, State.setMonitor_self]
    exact .refl law

theorem LawsKept.takeSample (law : ClaimLaw a s) (h : Head) (rec : SampleRecord) :
    LawsKept a s (s.takeSample h rec).state := by
  unfold State.takeSample
  split_ifs with inStroke halted
  · exact .strokeSample law inStroke rec
  · unfold State.haltedSample
    split
    · exact .joinCauses law h sampleCauses_code_le
    · exact .refl law
  · exact .refl law

theorem LawsKept.strike (law : ClaimLaw a s) (h : Head) {c : Cause} (code : c.code ≤ 13) :
    LawsKept a s (s.strike h c).state := by
  unfold State.strike
  split
  case isTrue inStroke => exact .abortStroke law inStroke (List.pairwise_singleton ..) (by simp)
  case isFalse => exact .joinCauses law h (by simpa using code)

end Sys2Proof.Machine

end

section
/-! The grant, the pass and START under the laws of claims, zones and users; types and sites changed by
the cell link; and claims that join and leave the queue. -/

namespace Sys2Proof.Machine

variable {s t u : State} {a : Option Head}

/-! ### The grant (R73) and START (R91) -/

/-- A grant of a grantable entry (R69, R73). -/
theorem LawsKept.grant (law : ClaimLaw a s) {e : QueueEntry} (queued : e ∈ s.queue) {i : Fin 48}
    (r : TypeRecord) (meets : s.meets e.claim = true) (zones : s.zonesFree e.claim.site = true)
    (typeNo : s.typeAt e.claim.site = some i) (ready : (s.typeSlot i).state = .ready) :
    LawsKept a s (s.grant e i r) := by
  have ranges := RangesKept.grant e i r meets ready
  have free := law.queued (List.mem_map_of_mem (f := (·.head)) queued)
  obtain ⟨entry, site, state⟩ := (s.meets_iff e.claim).1 meets
  have unheld : entry.state.unheld := by
    obtain ⟨-, loaded⟩ | ⟨-, rejected, -⟩ := state
    · rw [loaded]; exact fun _ _ => ⟨nofun, nofun⟩
    · rw [rejected]; exact fun _ _ => ⟨nofun, nofun⟩
  have own : (s.grant e i r).monitor e.head = { Monitor.idle with
      state := .armed, claim := some e.claim, grantTime := some s.clock, slot := true
      copy := some { typeNo := i, fields := r } } := by simp [State.grant, State.eventGranted]
  have others (j : Head) (other : j ≠ e.head) : (s.grant e i r).monitor j = s.monitor j := by
    simp [State.grant, State.eventGranted, other]
  have queue : (s.grant e i r).queue = s.queue.filter fun x => !(x.head == e.head) := by
    simp [State.grant]
  have sites (n : Fin 96) : (s.grant e i r).site n =
      if n = e.claim.site then some (entry.claimFor e.head) else s.site n := by
    simp [State.grant, State.eventGranted, site]
  have holder (z : Fin 32) : (s.grant e i r).holder z =
      if (s.keepOut e.claim.site).contains z then some e.head else s.holder z := by
    simp [State.grant, State.eventGranted, State.keepOut]
  have typeSlot (j : Fin 48) : (s.grant e i r).typeSlot j =
      if j = i then { (s.typeSlot i).reread with users := (s.typeSlot i).reread.users + 1 }
      else s.typeSlot j := by simp [State.grant, State.eventGranted]
  have board : (s.grant e i r).board = s.board := by simp
  have estop : (s.grant e i r).estop = s.estop := by simp
  generalize s.grant e i r = u at *
  have left (h : Head) : h ∈ u.queue.map (·.head) ↔ h ∈ s.queue.map (·.head) ∧ h ≠ e.head := by
    rw [queue, mem_heads_filter (p := fun h => !(h == e.head))]
    simp
  have typeAt (n : Fin 96) : u.typeAt n = s.typeAt n := by
    rw [State.typeAt, sites]
    split
    case isTrue same => rw [same, State.typeAt, site]; rfl
    case isFalse => rfl
  have keepOut (n : Fin 96) : u.keepOut n = s.keepOut n := by
    by_cases same : n = e.claim.site
    · simp [State.keepOut, sites, same, site, SiteEntry.claimFor]
    · rw [State.keepOut, sites, if_neg same]; rfl
  have apart (j : Head) {c : Claim} (active : (s.monitor j).state.active = true)
      (claim : (s.monitor j).claim = some c) : c.site ≠ e.claim.site := fun same =>
    law.not_unheld active claim (same ▸ site) unheld
  refine ⟨{ once := ?_, waiting := fun j other => ?_, arrival := fun j arriving => ?_
            bypass := fun x mem => ?_, heads := ranges.heads law.heads, claimed := fun n j => ?_
            pressing := fun n j => ?_ },
    fun ⟨waiting, act⟩ => ?_, fun closed noBoard n => ?_,
    fun ⟨held, freeZones⟩ => ⟨fun j d st claims z => ?_, fun j st z => ?_⟩,
    fun users => ⟨ranges.library users.library, fun k => ?_, fun j d v st claims copies => ?_,
      fun n k named => ?_⟩⟩
  case refine_1 => exact queue ▸ law.once.sublist (List.filter_sublist.map _)
  case refine_2 =>
    rw [left]
    by_cases same : j = e.head
    · simp [same, own]
    · rw [others j same, law.waiting j other]
      simp [same]
  case refine_3 =>
    rw [left]
    by_cases same : j = e.head
    · simp [same, own]
    · rw [others j same]
      simpa [same] using law.arrival j arriving
  case refine_4 =>
    rw [board]
    exact law.bypass x (List.mem_of_mem_filter (queue ▸ mem))
  case refine_5 =>
    by_cases here : n = e.claim.site
    · have granted : u.claimedBy n j ↔ j = e.head := by
        rw [State.claimedBy_iff, sites, if_pos here]
        simp [SiteEntry.claimFor, eq_comm]
      rw [granted]
      by_cases same : j = e.head
      · simp [same, own, State.claims, here]
      · refine iff_of_false same fun ⟨armed, c, claim, at_n⟩ => ?_
        rw [others j same] at armed claim
        exact apart j ((HeadState.active_iff _).2 (.inl armed)) claim (at_n.trans here)
    · rw [State.claimedBy, sites, if_neg here, ← State.claimedBy, law.claimed]
      by_cases same : j = e.head
      · subst same
        refine iff_of_false (fun held => free.quiet.1 held.1) fun ⟨_, c, claim, at_n⟩ => ?_
        simp only [own, Option.some.injEq] at claim
        exact here (at_n ▸ claim ▸ rfl)
      · rw [State.claims, State.claims, others j same]
  case refine_6 =>
    by_cases here : n = e.claim.site
    · refine iff_of_false ?_ fun ⟨stroke, c, claim, at_n⟩ => ?_
      · rw [State.pressedBy_iff, sites, if_pos here]
        simp [SiteEntry.claimFor]
      · by_cases same : j = e.head
        · rw [same, own] at stroke; cases stroke
        · rw [others j same] at stroke claim
          exact apart j ((HeadState.active_iff _).2 (.inr stroke)) claim (at_n.trans here)
    · rw [State.pressedBy, sites, if_neg here, ← State.pressedBy, law.pressing]
      by_cases same : j = e.head
      · subst same
        refine iff_of_false (fun held => ?_) fun held => ?_
        · rw [free.quiet.2.1] at held; cases held.1
        · rw [own] at held; cases held.1
      · rw [State.claims, State.claims, others j same]
  case refine_7 =>
    obtain ⟨isOpen, released⟩ := waiting (List.ne_nil_of_mem queued)
    exact ⟨fun _ => by rw [board, estop]; exact ⟨isOpen, released⟩,
      fun _ _ => by rw [board, estop]; exact ⟨isOpen, released⟩⟩
  case refine_8 =>
    have := closed (board ▸ noBoard) e.claim.site
    simp [site] at this
  case refine_9 =>
    rw [holder, keepOut]
    by_cases same : j = e.head
    · subst same
      obtain rfl : e.claim = d := by simpa [own] using claims
      have notMine := freeZones e.head free z
      by_cases mem : z ∈ s.keepOut e.claim.site <;> simp [mem, notMine]
    · rw [others j same] at claims
      rw [others j same] at st
      rw [← held j d st claims z]
      by_cases mem : z ∈ s.keepOut e.claim.site
      · have noHolder : s.holder z = none := by
          simpa using List.all_eq_true.1 zones z mem
        simp [mem, noHolder, Ne.symm same]
      · simp [mem]
  case refine_10 =>
    have other : j ≠ e.head := fun same => by
      rw [same, own] at st
      obtain st | st := st <;> cases st
    rw [others j other] at st
    rw [holder]
    split
    · simpa using other.symm
    · exact freeZones j st z
  case refine_11 =>
    have monitors : u.monitors = s.monitors.set e.head (u.monitor e.head) := PerHead.ext_get fun j => by
      rw [PerHead.get_set]
      split
      case isTrue same => rw [same]; rfl
      case isFalse other => exact others j other
    have count := PerHead.countP_set s.monitors e.head (u.monitor e.head) (·.uses k)
    have before : (s.monitors.get e.head).uses k = false := by
      change (s.monitor e.head).uses k = _
      rw [Monitor.uses, free.quiet.2.2, Bool.false_and]
    have after : (u.monitor e.head).uses k = decide (k = i) := by
      simp [own, Monitor.uses, HeadState.active, eq_comm, Bool.beq_eq_decide_eq]
    rw [before, after, ← monitors, ← users.users k] at count
    rw [typeSlot]
    by_cases same : k = i
    · subst same
      simpa using count.symm
    · simpa [same] using count.symm
  case refine_12 =>
    rw [typeAt]
    by_cases same : j = e.head
    · subst same
      obtain rfl : e.claim = d := by simpa [own] using claims
      obtain rfl : { typeNo := i, fields := r } = v := by simpa [own] using copies
      exact typeNo
    · rw [others j same] at claims copies
      rw [others j same] at st
      exact users.copies j d v st claims copies
  case refine_13 =>
    rw [typeAt] at named
    rw [typeSlot]
    split
    case isTrue same => simp [ready]
    case isFalse => exact users.named n k named

/-- START of an ARMED head (R58, R91). -/
theorem LawsKept.startStroke (law : ClaimLaw a s) {h : Head} {c : Claim} {w : WorkingCopy}
    (armed : (s.monitor h).state = .armed) (claim : (s.monitor h).claim = some c) :
    LawsKept a s (s.startStroke h c w) := by
  have ranges := RangesKept.startStroke (s := s) h c w armed
  have active : (s.monitor h).state.active = true := (HeadState.active_iff _).2 (.inl armed)
  obtain ⟨e, g, site, held⟩ := law.site_of_armed armed claim
  have own : ((s.startStroke h c w).monitor h).state = .approach ∧
      ((s.startStroke h c w).monitor h).claim = (s.monitor h).claim ∧
      ((s.startStroke h c w).monitor h).copy = (s.monitor h).copy := by simp [State.startStroke]
  have others (j : Head) (other : j ≠ h) : (s.startStroke h c w).monitor j = s.monitor j := by
    simp [State.startStroke, other]
  have queue : (s.startStroke h c w).queue = s.queue := by simp [State.startStroke]
  have sites (n : Fin 96) : (s.startStroke h c w).site n =
      if n = c.site then some { e with state := .pressing h g } else s.site n := by
    simp [State.startStroke, site, SiteEntry.press, held]
  have holder (z : Fin 32) : (s.startStroke h c w).holder z = s.holder z := by simp [State.startStroke]
  have typeSlot (i : Fin 48) : (s.startStroke h c w).typeSlot i = s.typeSlot i := by
    simp [State.startStroke]
  have board : (s.startStroke h c w).board = s.board := by simp [State.startStroke]
  have estop : (s.startStroke h c w).estop = s.estop := by simp [State.startStroke]
  generalize s.startStroke h c w = u at *
  obtain ⟨approach, claim', copy'⟩ := own
  have claims (j : Head) (n : Fin 96) : u.claims j n ↔ s.claims j n := by
    rw [State.claims_iff, State.claims_iff]
    by_cases same : j = h
    · rw [same, claim']
    · rw [others j same]
  have state (j : Head) : (u.monitor j).state.active = (s.monitor j).state.active ∧
      ((u.monitor j).state.free ↔ (s.monitor j).state.free) := by
    by_cases same : j = h
    · subst same
      rw [approach, armed]
      exact ⟨rfl, by simp [HeadState.free]⟩
    · rw [others j same]
      exact ⟨rfl, .rfl⟩
  have monitor (j : Head) : (u.monitor j).claim = (s.monitor j).claim ∧
      (u.monitor j).copy = (s.monitor j).copy := by
    by_cases same : j = h
    · exact same ▸ ⟨claim', copy'⟩
    · rw [others j same]
      exact ⟨rfl, rfl⟩
  have typeAt (n : Fin 96) : u.typeAt n = s.typeAt n := by
    by_cases same : n = c.site
    · simp [State.typeAt, sites, same, site]
    · rw [State.typeAt, sites, if_neg same]; rfl
  have keepOut (n : Fin 96) : u.keepOut n = s.keepOut n := by
    by_cases same : n = c.site
    · simp [State.keepOut, sites, same, site]
    · rw [State.keepOut, sites, if_neg same]; rfl
  have mine (n : Fin 96) : s.claims h n ↔ n = c.site := by
    rw [State.claims_iff, claim, Option.map_some, Option.some_inj, eq_comm]
  have alone (j : Head) (armed' : (s.monitor j).state = .armed) (at_site : s.claims j c.site) : j = h :=
    State.claimedBy_unique ((law.claimed _ j).2 ⟨armed', at_site⟩) ⟨e, g, site, held⟩
  have noStroke (j : Head) : (s.monitor j).state.inStroke = true → ¬ s.claims j c.site :=
    fun stroke at_site => State.claimedBy_not_pressedBy ⟨e, g, site, held⟩
      ((law.pressing _ j).2 ⟨stroke, at_site⟩)
  refine ⟨{ once := queue ▸ law.once, waiting := fun j other => ?_, arrival := fun j arriving => ?_
            bypass := ?_, heads := ranges.heads law.heads, claimed := fun n j => ?_
            pressing := fun n j => ?_ },
    fun ⟨waiting, act⟩ => ⟨?_, fun j st => ?_⟩, fun closed noBoard n => ?_,
    fun ⟨zones, free⟩ => ⟨fun j d st at_site z => ?_, fun j st z => ?_⟩,
    fun users => ⟨ranges.library users.library, fun k => ?_, fun j d v st at_site copied => ?_,
      fun n k named => ?_⟩⟩
  case refine_1 =>
    rw [queue]
    by_cases same : j = h
    · subst same
      exact iff_of_false (by simp [approach]) (law.not_queued active)
    · rw [others j same, law.waiting j other]
  case refine_2 =>
    rw [queue]
    by_cases same : j = h
    · subst same
      exact ⟨by simp [approach], fun queued => absurd queued (law.not_queued active)⟩
    · rw [others j same]
      exact law.arrival j arriving
  case refine_3 =>
    rw [queue, board]
    exact law.bypass
  case refine_4 =>
    rw [claims]
    by_cases here : n = c.site
    · subst here
      refine iff_of_false ?_ fun ⟨armed', at_site⟩ => ?_
      · rw [State.claimedBy_iff, sites, if_pos rfl]; simp
      · by_cases same : j = h
        · rw [same, approach] at armed'; cases armed'
        · exact same (alone j (others j same ▸ armed') at_site)
    · rw [State.claimedBy, sites, if_neg here, ← State.claimedBy, law.claimed]
      by_cases same : j = h
      · subst same
        exact iff_of_false (fun held => here ((mine n).1 held.2)) fun held => here ((mine n).1 held.2)
      · rw [others j same]
  case refine_5 =>
    rw [claims]
    by_cases here : n = c.site
    · subst here
      have pressed : u.pressedBy c.site j ↔ j = h := by
        rw [State.pressedBy_iff, sites, if_pos rfl]
        simp [eq_comm]
      rw [pressed]
      by_cases same : j = h
      · subst same
        exact iff_of_true rfl ⟨by rw [approach]; rfl, (mine _).2 rfl⟩
      · refine iff_of_false same fun ⟨stroke, at_site⟩ => ?_
        exact noStroke j (others j same ▸ stroke) at_site
    · rw [State.pressedBy, sites, if_neg here, ← State.pressedBy, law.pressing]
      by_cases same : j = h
      · subst same
        exact iff_of_false (fun held => here ((mine n).1 held.2)) fun held => here ((mine n).1 held.2)
      · rw [others j same]
  case refine_6 =>
    rw [queue, board, estop]
    exact waiting
  case refine_7 =>
    rw [board, estop]
    exact act j ((state j).1 ▸ st)
  case refine_8 =>
    have := closed (board ▸ noBoard) c.site
    simp [site] at this
  case refine_9 =>
    rw [holder, keepOut]
    exact zones j d ((state j).1 ▸ st) ((monitor j).1 ▸ at_site) z
  case refine_10 =>
    rw [holder]
    exact free j ((state j).2.1 st) z
  case refine_11 =>
    rw [typeSlot, users.users]
    refine PerHead.countP_congr fun j => ?_
    change (s.monitor j).uses k = (u.monitor j).uses k
    rw [Monitor.uses, Monitor.uses, (state j).1, (monitor j).2]
  case refine_12 =>
    rw [typeAt]
    exact users.copies j d v ((state j).1 ▸ st) ((monitor j).1 ▸ at_site) ((monitor j).2 ▸ copied)
  case refine_13 =>
    rw [typeSlot]
    exact users.named n k (typeAt n ▸ named)

end Sys2Proof.Machine

end

section
/-! The pass, the changes of types, sites and boards, and claims that join or leave the queue, under the
laws of claims, zones and users. -/

namespace Sys2Proof.Machine

variable {s t u : State} {a : Option Head}

/-! ### Types (R25, R31, R34, R37) -/

/-- A type's slot exchanged for one with as many users, ABSENT only where it was or where no site names
the type. -/
theorem LawsKept.setType (law : ClaimLaw a s) (i : Fin 48) {slot : TypeSlot}
    (sound : SlotSound (s.typeSlot i) → SlotSound slot)
    (users : UsersCounted s → slot.users = (s.typeSlot i).users)
    (present : slot.state = .absent → (s.typeSlot i).state = .absent ∨ ∀ n, s.typeAt n ≠ some i) :
    LawsKept a s (s.setType i slot) where
  claims := { once := law.once, waiting := law.waiting, arrival := law.arrival, bypass := law.bypass
              heads := law.heads, claimed := law.claimed, pressing := law.pressing }
  opens := fun opens => ⟨opens.waiting, opens.active⟩
  board := id
  zones := fun zones => ⟨zones.held, zones.free⟩
  users := fun counted => by
    refine ⟨fun j => ?_, fun j => ?_, counted.copies, fun n j named => ?_⟩ <;>
      rw [State.setType_typeSlot] <;> split
    case refine_1.isTrue => exact sound (counted.library i)
    case refine_1.isFalse => exact counted.library j
    case refine_2.isTrue same => rw [same]; exact (users counted).trans (counted.users i)
    case refine_2.isFalse => exact counted.users j
    case refine_3.isTrue same =>
      have site : s.typeAt n = some i := same ▸ named
      exact fun absent => (present absent).elim (counted.named n i site) fun unnamed => unnamed n site
    case refine_3.isFalse => exact counted.named n j named

/-! ### Sites (R50 to R52) -/

/-- The entry of a site that no head holds exchanged for another such. -/
theorem LawsKept.setSite (law : ClaimLaw a s) (n : Fin 96) {e : SiteEntry}
    (before : ∀ e', s.site n = some e' → e'.state.unheld) (unheld : e.state.unheld)
    (board : s.board.state = .noBoard → s.site n ≠ none)
    (present : UsersCounted s → (s.typeSlot e.typeNo).state ≠ .absent) :
    LawsKept a s (s.setSite n (some e)) := by
  have apart (h : Head) {c : Claim} (active : (s.monitor h).state.active = true)
      (claim : (s.monitor h).claim = some c) : c.site ≠ n := fun same => by
    obtain ⟨e', site⟩ : ∃ e', s.site c.site = some e' := by
      obtain armed | inStroke := (HeadState.active_iff _).1 active
      · obtain ⟨e', g, site, -⟩ := law.site_of_armed armed claim
        exact ⟨e', site⟩
      · obtain ⟨e', g, site, -⟩ := law.site_of_inStroke inStroke claim
        exact ⟨e', site⟩
    exact law.not_unheld active claim site (before e' (same ▸ site))
  have site (m : Fin 96) : (s.setSite n (some e)).site m = if m = n then some e else s.site m := by simp
  have here : ∀ e', (s.setSite n (some e)).site n = some e' → e'.state.unheld := fun e' new => by
    rw [site, if_pos rfl] at new
    cases new
    exact unheld
  refine ⟨{ once := law.once, waiting := law.waiting, arrival := law.arrival, bypass := law.bypass
            heads := law.heads, claimed := fun m h => ?_, pressing := fun m h => ?_ },
    fun opens => ⟨opens.waiting, opens.active⟩, fun closed noBoard => absurd (closed noBoard n) (board noBoard),
    fun ⟨held, free⟩ => ⟨fun h c active claim z => ?_, free⟩,
    fun counted => ⟨counted.library, counted.users, fun h c w active claim copy => ?_,
      fun m i named => ?_⟩⟩
  case refine_1 =>
    by_cases same : m = n
    · subst same
      refine iff_of_false (State.not_claimedBy_of_unheld here h) fun held => ?_
      exact State.not_claimedBy_of_unheld before h ((law.claimed m h).2 held)
    · rw [State.claimedBy, site, if_neg same]
      exact law.claimed m h
  case refine_2 =>
    by_cases same : m = n
    · subst same
      refine iff_of_false (State.not_pressedBy_of_unheld here h) fun held => ?_
      exact State.not_pressedBy_of_unheld before h ((law.pressing m h).2 held)
    · rw [State.pressedBy, site, if_neg same]
      exact law.pressing m h
  case refine_3 =>
    rw [State.keepOut, site, if_neg (apart h active claim)]
    exact held h c active claim z
  case refine_4 =>
    rw [State.typeAt, site, if_neg (apart h active claim)]
    exact counted.copies h c w active claim copy
  case refine_5 =>
    rw [State.typeAt, site] at named
    split at named
    · cases named
      exact present counted
    · exact counted.named m i named

/-! ### Heads and boards (R46, R101, R140) -/

/-- A head that has left its stroke gives its zones back and is IDLE. -/
theorem LawsKept.freeHead (law : ClaimLaw none s) {h : Head}
    (ended : (s.monitor h).state.unacknowledged = true) :
    LawsKept none s ((s.freeZones h).toIdle h) := by
  have quiet : (s.monitor h).state.active = false ∧ ¬ (s.monitor h).state.free := by
    obtain st | st := (HeadState.unacknowledged_iff _).1 ended <;> rw [st] <;>
      exact ⟨rfl, by simp [HeadState.free]⟩
  have notQueued : h ∉ s.queue.map (·.head) := fun queued => quiet.2 (law.queued queued)
  have monitor (j : Head) : ((s.freeZones h).toIdle h).monitor j =
      if j = h then Monitor.idle else s.monitor j := by simp
  have holder (z : Fin 32) : ((s.freeZones h).toIdle h).holder z =
      if s.holder z = some h then none else s.holder z := by
    rw [State.toIdle_holder, State.freeZones_holder]
  refine .of_grants law ⟨fun j => ?_, fun i => by simp, fun n => by simp, fun z j held => ?_,
    fun z j active held => ?_, by simp, by simp⟩ (fun j => ?_)
    ⟨by simpa using law.once, fun j _ => ?_, nofun, by simpa using law.bypass⟩
    fun some => .inl (by simpa using some)
  case refine_1 =>
    rw [monitor]
    split
    case isTrue same =>
      subst same
      refine .inr ⟨quiet.1, rfl, fun _ => .inr fun z held => ?_⟩
      rw [holder] at held
      split at held
      · cases held
      · contradiction
    case isFalse => exact .inl ⟨rfl, rfl, .inl rfl⟩
  case refine_2 =>
    rw [holder] at held
    split at held
    · cases held
    · exact held
  case refine_3 =>
    rw [holder, if_neg]
    · exact held
    · rw [held, Option.some_inj]
      exact fun same => by rw [same, quiet.1] at active; cases active
  case refine_4 =>
    rw [monitor]
    split
    · exact .idle
    · exact law.heads j
  case refine_5 =>
    rw [monitor]
    simp only [State.toIdle_queue, State.freeZones_queue]
    split
    case isTrue same => exact iff_of_false nofun (same ▸ notQueued)
    case isFalse => exact law.waiting j (by simp)

/-- Without claims the board and its sites can change at will. -/
theorem LawsKept.of_quiet (law : ClaimLaw none s) (empty : s.queue = [])
    (inactive : ∀ h, (s.monitor h).state.active = false) (queue : t.queue = s.queue)
    (monitors : t.monitors = s.monitors) (zones : t.zones = s.zones) (library : t.library = s.library)
    (undefined : ∀ n, t.site n = none) : LawsKept none s t := by
  have monitor (h : Head) : t.monitor h = s.monitor h := by rw [State.monitor, monitors]; rfl
  have holder (z : Fin 32) : t.holder z = s.holder z := by rw [State.holder, zones]; rfl
  have typeSlot (i : Fin 48) : t.typeSlot i = s.typeSlot i := by rw [State.typeSlot, library]; rfl
  have noSite (n : Fin 96) : ∀ e, t.site n = some e → e.state.unheld := fun e site => by
    rw [undefined] at site; cases site
  have notActive (h : Head) : ¬ (t.monitor h).state.active = true := by
    rw [monitor, inactive]; exact Bool.false_ne_true
  refine ⟨{ once := queue ▸ law.once, waiting := fun h other => ?_, arrival := nofun
            bypass := fun e mem => ?_, heads := fun h => monitor h ▸ law.heads h
            claimed := fun n h => ?_, pressing := fun n h => ?_ },
    fun _ => ⟨fun some => absurd (queue.trans empty) some, fun h st => absurd st (notActive h)⟩,
    fun _ _ => undefined,
    fun ⟨_, free⟩ => ⟨fun h _ st => absurd st (notActive h), fun h st z => ?_⟩,
    fun counted => ⟨fun i => typeSlot i ▸ counted.library i, fun i => ?_,
      fun h _ _ st => absurd st (notActive h), fun n i named => ?_⟩⟩
  case refine_1 => rw [monitor, queue, law.waiting h other]
  case refine_2 => rw [queue, empty] at mem; cases mem
  case refine_3 =>
    exact iff_of_false (State.not_claimedBy_of_unheld (noSite n) h) fun held =>
      notActive h ((HeadState.active_iff _).2 (.inl held.1))
  case refine_4 =>
    exact iff_of_false (State.not_pressedBy_of_unheld (noSite n) h) fun held =>
      notActive h ((HeadState.active_iff _).2 (.inr held.1))
  case refine_5 =>
    rw [holder]
    exact free h (monitor h ▸ st) z
  case refine_6 => rw [typeSlot, counted.users, monitors]
  case refine_7 => rw [State.typeAt, undefined] at named; cases named

theorem ClaimLaw.quiet_of_not_open (opens : OpenLaw s) (closed : s.board.state ≠ .isOpen) :
    s.queue = [] ∧ ∀ h, (s.monitor h).state.active = false := by
  refine ⟨?_, fun h => ?_⟩
  · by_contra some
    exact closed (opens.waiting some).1
  · by_contra active
    exact closed (opens.active h (by simpa using active)).1

theorem LawsKept.closeBoard (law : ClaimLaw none s) (empty : s.queue = [])
    (inactive : ∀ h, (s.monitor h).state.active = false) : LawsKept none s s.closeBoard :=
  .of_quiet law empty inactive rfl rfl rfl rfl fun n => by simp [State.closeBoard, State.site]

theorem LawsKept.closeIfAborted (law : ClaimLaw none s) (opens : OpenLaw s) :
    LawsKept none s s.closeIfAborted := by
  unfold State.closeIfAborted
  split
  case isTrue aborting =>
    obtain ⟨empty, inactive⟩ := ClaimLaw.quiet_of_not_open opens (by rw [aborting.1]; decide)
    exact .closeBoard law empty inactive
  case isFalse => exact .refl law

/-! ### Claims that join and leave the queue (R67, R68, R79) -/

/-- Granted claims are the same where the queue alone and a head without one have changed. -/
theorem SameGrants.of_free (h : Head) (others : ∀ j, j ≠ h → t.monitor j = s.monitor j)
    (before : (s.monitor h).state.free) (after : (t.monitor h).state.free)
    (typeSlot : ∀ i, t.typeSlot i = s.typeSlot i) (site : ∀ n, t.site n = s.site n)
    (holder : ∀ z, t.holder z = s.holder z) (board : t.board = s.board) (estop : t.estop = s.estop) :
    SameGrants s t where
  monitor := fun j => by
    by_cases same : j = h
    · exact .inr (same ▸ ⟨before.quiet.2.2, after.quiet.2.2, fun _ => .inl before⟩)
    · rw [others j same]
      exact .inl ⟨rfl, rfl, .inl rfl⟩
  typeSlot := typeSlot
  site := site
  holder := fun z j held => holder z ▸ held
  kept := fun z j _ held => (holder z).trans held
  board := board
  estop := estop

theorem joinQueue_heads (h : Head) (c : Claim) :
    (s.joinQueue h c).queue.map (·.head) = s.queue.map (·.head) ++ [h] := by
  simp [State.joinQueue]

theorem ClaimLaw.joinQueue_law (law : ClaimLaw none s) {h : Head} (idle : (s.monitor h).state = .idle)
    (c : Claim) : h ∉ s.queue.map (·.head) ∧ ((s.joinQueue h c).queue.map (·.head)).Nodup ∧
      ∀ e ∈ (s.joinQueue h c).queue, e.bypass ≤ s.board.bypassLimit := by
  have apart : h ∉ s.queue.map (·.head) := fun queued => by
    have := (law.waiting h (by simp)).2 queued
    simp [idle] at this
  refine ⟨apart, ?_, fun e mem => ?_⟩
  · rw [joinQueue_heads, List.nodup_append]
    refine ⟨law.once, List.nodup_singleton h, fun j queued k mem => ?_⟩
    rw [List.mem_singleton.1 mem]
    exact fun same => apart (same ▸ queued)
  · obtain older | new := List.mem_append.1 mem
    · exact law.bypass e older
    · rw [List.mem_singleton.1 new]
      exact Nat.zero_le _

/-- A claim that asks to wait joins the queue, its head WAITING (R67). -/
theorem LawsKept.claimWaiting (law : ClaimLaw none s) {h : Head} (c : Claim)
    (isOpen : s.board.state = .isOpen) (released : s.estop = false)
    (idle : (s.monitor h).state = .idle) :
    LawsKept none s ((s.joinQueue h c).setMonitor h { s.monitor h with state := .waiting }) := by
  obtain ⟨apart, once, bypass⟩ := law.joinQueue_law idle c
  have monitor (j : Head) : ((s.joinQueue h c).setMonitor h { s.monitor h with
      state := .waiting }).monitor j =
      if j = h then { s.monitor h with state := .waiting } else s.monitor j := by
    rw [State.setMonitor_monitor]; rfl
  refine .of_grants law (.of_free h (fun j other => by rw [monitor, if_neg other]) (.inl idle)
    (.inr (by rw [monitor, if_pos rfl])) (fun _ => rfl) (fun _ => rfl) (fun _ => rfl) rfl rfl)
    (fun j => ?_) ⟨once, fun j _ => ?_, nofun, bypass⟩ fun _ => .inr ⟨isOpen, released⟩
  · rw [monitor]
    split
    · exact (law.heads h).eq_idle idle ▸ HeadSound.waiting
    · exact law.heads j
  · rw [monitor, State.setMonitor_queue, joinQueue_heads]
    split
    case isTrue same => simp [same]
    case isFalse other => simp [law.waiting j, other]

/-- A claim that asks not to wait joins the queue for the pass it brings (R68). -/
theorem LawsKept.joinQueue (law : ClaimLaw none s) {h : Head} (c : Claim)
    (isOpen : s.board.state = .isOpen) (released : s.estop = false)
    (idle : (s.monitor h).state = .idle) : LawsKept (some h) s (s.joinQueue h c) := by
  obtain ⟨apart, once, bypass⟩ := law.joinQueue_law idle c
  refine .of_grants law (.of_free h (fun _ _ => rfl) (.inl idle) (.inl idle) (fun _ => rfl)
    (fun _ => rfl) (fun _ => rfl) rfl rfl) law.heads
    ⟨once, fun j other => ?_, fun j own => ?_, bypass⟩ fun _ => .inr ⟨isOpen, released⟩
  · have apart' : j ≠ h := fun same => other (by rw [same])
    rw [joinQueue_heads]
    change (s.monitor j).state = .waiting ↔ _
    simpa [apart'] using law.waiting j (by simp)
  · cases own
    exact ⟨by rw [show (s.joinQueue h c).monitor h = s.monitor h from rfl, idle]; decide, fun _ => idle⟩

/-- After its pass a no-wait claim that was not granted leaves the queue (R68). -/
theorem LawsKept.leaveQueue {h : Head} (law : ClaimLaw (some h) s) :
    LawsKept none s (s.leaveQueue h) := by
  have left (j : Head) : j ∈ (s.leaveQueue h).queue.map (·.head) ↔
      j ∈ s.queue.map (·.head) ∧ j ≠ h := by
    rw [State.leaveQueue_queue, mem_heads_filter (p := fun k => !(k == h))]
    simp
  refine .of_grants law ⟨fun j => .inl ⟨rfl, rfl, .inl rfl⟩, fun _ => rfl, fun _ => rfl,
    fun _ _ => id, fun _ _ _ => id, rfl, rfl⟩ law.heads
    ⟨State.leaveQueue_queue .. ▸ law.once.sublist (List.filter_sublist.map _), fun j _ => ?_, nofun,
      fun e mem => law.bypass e (List.mem_of_mem_filter (State.leaveQueue_queue .. ▸ mem))⟩
    fun some => .inl fun empty => some (by rw [State.leaveQueue_queue, empty, List.filter_nil])
  rw [left, State.leaveQueue_monitor]
  by_cases same : j = h
  · exact iff_of_false (same ▸ (law.arrival h rfl).1) fun held => held.2 same
  · simpa [same] using law.waiting j (by simpa using fun e => same e.symm)

/-- A head that is neither waiting nor queued needs no exemption (R68). -/
theorem LawsKept.arrived {h : Head} (law : ClaimLaw (some h) s) (busy : (s.monitor h).state ≠ .idle) :
    LawsKept none s s := by
  refine ⟨{ law with waiting := fun j _ => ?_, arrival := nofun }, id, id, id, id⟩
  by_cases same : j = h
  · subst same
    exact iff_of_false (law.arrival j rfl).1 fun queued => busy ((law.arrival j rfl).2 queued)
  · exact law.waiting j (by simpa using fun e => same e.symm)

/-! ### The pass (R70) -/

/-- Bypass counts that rise stay within the limit, where none of them stood at it (R70, R72). -/
theorem LawsKept.raiseBypass (law : ClaimLaw a s) (older : List QueueEntry) (n : Fin 96)
    (room : ∀ e ∈ s.queue, older.any (·.head == e.head) = true →
      shareZone (s.keepOut e.claim.site) (s.keepOut n) = true → e.bypass ≠ s.board.bypassLimit) :
    LawsKept a s (s.raiseBypass older n) := by
  have heads : (s.raiseBypass older n).queue.map (·.head) = s.queue.map (·.head) := by
    rw [State.raiseBypass, List.map_map]
    refine List.map_congr_left fun e _ => ?_
    simp only [Function.comp]
    split <;> rfl
  refine .of_grants law ⟨fun j => .inl ⟨rfl, rfl, .inl rfl⟩, fun _ => rfl, fun _ => rfl,
    fun _ _ => id, fun _ _ _ => id, rfl, rfl⟩ law.heads
    ⟨heads ▸ law.once, fun j other => heads ▸ law.waiting j other,
      fun j own => heads ▸ law.arrival j own, fun x mem => ?_⟩
    fun some => .inl fun empty => some (by rw [State.raiseBypass, empty]; rfl)
  obtain ⟨e, queued, rfl⟩ := List.mem_map.1 mem
  have within := law.bypass e queued
  split
  case isTrue raised =>
    rw [Bool.and_eq_true] at raised
    have := room e queued raised.1 raised.2
    simp only [State.raiseBypass_board]
    omega
  case isFalse => exact within

theorem State.grant_queue (e : QueueEntry) (i : Fin 48) (r : TypeRecord) :
    (s.grant e i r).queue = s.queue.filter fun x => !(x.head == e.head) := by simp [State.grant]

/-- A granted entry's keep-out set and type are those it had (R55). -/
theorem State.grant_keepOut (e : QueueEntry) (i : Fin 48) (r : TypeRecord) (n : Fin 96) :
    (s.grant e i r).keepOut n = s.keepOut n := by
  have site : (s.grant e i r).site n =
      if n = e.claim.site then (s.site e.claim.site).map (·.claimFor e.head) else s.site n := by
    simp [State.grant, State.eventGranted]
  by_cases same : n = e.claim.site
  · rw [State.keepOut, site, if_pos same, State.keepOut, same]
    cases s.site e.claim.site <;> rfl
  · rw [State.keepOut, site, if_neg same]; rfl

theorem State.dropAll_keepOut (b : Option Head) (r : ClaimReason) (es : List QueueEntry) (n : Fin 96) :
    (s.dropAll b r es).keepOut n = s.keepOut n := by simp [State.keepOut, State.site]

theorem State.grantable_iff (s : State) (e : QueueEntry) : s.grantable e = true ↔
    s.meets e.claim = true ∧ s.typeStateAt e.claim.site = some .ready ∧
      s.zonesFree e.claim.site = true ∧ s.slotFree = true ∧ s.blocked e = false := by
  simp [State.grantable, and_assoc]

theorem LawsKept.passEntry (law : ClaimLaw a s) (b : Option Head) {e : QueueEntry}
    (queued : e ∈ s.queue) : LawsKept a s (s.passEntry b e) := by
  obtain ⟨-, h⟩ | ⟨-, -, h⟩ | ⟨i, meets, grantable, typeNo, ready, ⟨r, -, h⟩ | ⟨-, h⟩⟩ :=
    s.passEntry_cases b e <;> rw [h]
  · exact .dropEntry law b .siteChanged queued
  · exact .refl law
  · obtain ⟨-, -, zones, -, unblocked⟩ := (s.grantable_iff e).1 grantable
    have granted := LawsKept.grant law queued r meets zones typeNo ready
    have dropped := granted.trans (.dropWaiting granted.claims b .siteChanged
      fun x => x.claim.site == e.claim.site)
    refine dropped.trans (.raiseBypass dropped.claims _ _ fun x mem older shares full => ?_)
    have queued' : x ∈ s.queue := by
      rw [State.dropAll_queue] at mem
      have := List.mem_of_mem_filter mem
      rw [State.grant_queue] at this
      exact List.mem_of_mem_filter this
    obtain ⟨o, mem', same⟩ := List.any_eq_true.1 older
    obtain rfl : o = x := by
      have queued'' : o ∈ s.queue := (List.takeWhile_sublist _).subset mem'
      exact List.inj_on_of_nodup_map law.once queued'' queued' (eq_of_beq same)
    rw [State.dropAll_keepOut, State.dropAll_keepOut, State.grant_keepOut,
      State.grant_keepOut] at shares
    rw [State.dropAll_board, State.grant_board] at full
    have blocked : s.blocked e = true :=
      List.any_eq_true.2 ⟨o, mem', by rw [full, shares, beq_self_eq_true]; rfl⟩
    rw [unblocked] at blocked
    cases blocked
  · have broken : LawsKept a s (s.setType i { (s.typeSlot i).reread with state := .broken }) :=
      .setType law i (fun sound => sound.reread.broken (by simp [ready]) (by simp [ready]))
        (fun _ => by simp) nofun
    exact broken.trans (.dropWaiting broken.claims ..)

theorem LawsKept.pass (law : ClaimLaw a s) (b : Option Head) : LawsKept a s (s.pass b) :=
  State.pass_induct b (fun _ _ queued kept => kept.trans (.passEntry kept.claims b queued)) (.refl law)

end Sys2Proof.Machine

end

section
/-! Every step keeps the law of zones and the law of users: the events that end everything, the resets,
and the operations of `Kept` put together. -/

namespace Sys2Proof.Machine

variable {s t u : State} {a : Option Head}

/-! ### The events that end every claim and stroke (R45, R83) -/

theorem LawsKept.endHead (law : ClaimLaw a s) (r : ClaimReason) {c : Cause} (code : c.code ≤ 13)
    (h : Head) : LawsKept a s (s.endHead r c h) := by
  unfold State.endHead
  split
  case isTrue armed => exact .revoke law armed r
  case isFalse => exact .strike law h code

theorem endHead_endsHead (sound : HeadsSound s) (r : ClaimReason) (c : Cause) (h : Head) :
    EndsHead h s (s.endHead r c h) := by
  unfold State.endHead State.strike
  split_ifs with armed inStroke
  · exact revoke_endsHead sound armed r
  · exact abortStroke_endsHead sound inStroke c []
  · intro j
    rw [State.setMonitor_monitor]
    split
    case isTrue same =>
      subst same
      obtain ⟨k, halted, -, joined⟩ | ⟨-, kept⟩ := (s.monitor j).joinCauses_cases [c]
      · exact .inr (.inl ⟨rfl, by rw [joined]; exact halted⟩)
      · exact .inr (.inr ⟨kept, fun _ => eq_false_of_ne_true
          (mt (HeadState.active_iff _).1 (not_or.2 ⟨armed, inStroke⟩))⟩)
    case isFalse other => exact .inr (.inr ⟨rfl, fun same => absurd same other⟩)

theorem abortStroke_queue_le (h : Head) (c : Cause) (further : List Cause) :
    (s.abortStroke h c further).state.queue.length ≤ s.queue.length := by
  unfold State.abortStroke
  simp only
  split
  · simpa using (State.releaseUser_idles (s := (s.setMonitor h _).changeSite _ _) _).queue
  · exact Nat.le_refl _

theorem revoke_queue_le (h : Head) (r : ClaimReason) :
    (s.revoke h r).queue.length ≤ s.queue.length := by
  have ended := (State.endArmed_idles (s := s) h).1.queue
  unfold State.revoke
  split
  · split
    · exact ended
    · simpa using ended
  · exact ended

theorem endHead_queue_le (r : ClaimReason) (c : Cause) (h : Head) :
    (s.endHead r c h).queue.length ≤ s.queue.length := by
  unfold State.endHead State.strike
  split_ifs
  · exact revoke_queue_le h r
  · exact abortStroke_queue_le h c []
  · exact Nat.le_refl _

/-- The heads of a list ended one after the other. -/
theorem LawsKept.endHeads (r : ClaimReason) {c : Cause} (code : c.code ≤ 13) (hs : List Head)
    (law : ClaimLaw a s) (empty : s.queue = []) :
    LawsKept a s (hs.foldl (fun s h => s.endHead r c h) s) ∧
      (hs.foldl (fun s h => s.endHead r c h) s).queue = [] ∧
      ∀ j, j ∈ hs ∨ (s.monitor j).state.active = false →
        ((hs.foldl (fun s h => s.endHead r c h) s).monitor j).state.active = false := by
  induction hs generalizing s with
  | nil => exact ⟨.refl law, empty, fun j ended => by simpa using ended⟩
  | cons h hs ih =>
    have ended := LawsKept.endHead law r code h
    have empty' : (s.endHead r c h).queue = [] := by
      simpa [empty] using endHead_queue_le (s := s) r c h
    obtain ⟨others, queue, quiet⟩ := ih ended.claims empty'
    refine ⟨ended.trans others, queue, fun j member => quiet j ?_⟩
    rw [List.mem_cons, or_right_comm] at member
    exact member.symm.imp_right ((endHead_endsHead law.heads r c h).inactive j)

theorem LawsKept.endEverything (law : ClaimLaw none s) (r : ClaimReason) {c : Cause}
    (code : c.code ≤ 13) : LawsKept none s (s.endEverything r c) ∧ (s.endEverything r c).queue = [] ∧
      ∀ j, ((s.endEverything r c).monitor j).state.active = false := by
  have dropped := LawsKept.dropAll law none r fun e mem => List.mem_map_of_mem (f := (·.head)) mem
  obtain ⟨kept, empty, quiet⟩ := LawsKept.endHeads r code allHeads dropped.claims (by simp)
  exact ⟨dropped.trans kept, empty, fun j => quiet j (.inl (mem_allHeads j))⟩

theorem OpenLaw.of_quiet (empty : t.queue = []) (inactive : ∀ h, (t.monitor h).state.active = false) :
    OpenLaw t :=
  ⟨fun some => absurd empty some, fun h active => by rw [inactive] at active; cases active⟩

/-! ### Resets -/

/-- A state with no claim, no site and no zone held. -/
structure Vacant (t : State) : Prop where
  heads : HeadsSound t
  queue : t.queue = []
  inactive : ∀ h, (t.monitor h).state.active = false
  none_waits : ∀ h, (t.monitor h).state ≠ .waiting
  undefined : ∀ n, t.site n = none
  unheld : ∀ z, t.holder z = none

theorem Vacant.siteLaw (vacant : Vacant t) : SiteLaw t ∧ ZonesHeld t := by
  have notActive (h : Head) : ¬ (t.monitor h).state.active = true := by
    rw [vacant.inactive]; exact Bool.false_ne_true
  have noSite (n : Fin 96) : ∀ e, t.site n = some e → e.state.unheld := fun e site => by
    rw [vacant.undefined] at site; cases site
  refine ⟨siteLaw_iff.2 ⟨{ once := ?_, waiting := fun h _ => ?_, arrival := nofun, bypass := ?_
                           heads := vacant.heads, claimed := fun n h => ?_, pressing := fun n h => ?_ },
    .of_quiet vacant.queue vacant.inactive, fun _ => vacant.undefined⟩,
    fun h _ active => absurd active (notActive h), fun h _ z => by rw [vacant.unheld]; exact nofun⟩
  · rw [vacant.queue]; exact List.nodup_nil
  · rw [vacant.queue]; exact iff_of_false (vacant.none_waits h) List.not_mem_nil
  · rw [vacant.queue]; exact nofun
  · exact iff_of_false (State.not_claimedBy_of_unheld (noSite n) h) fun held =>
      notActive h ((HeadState.active_iff _).2 (.inl held.1))
  · exact iff_of_false (State.not_pressedBy_of_unheld (noSite n) h) fun held =>
      notActive h ((HeadState.active_iff _).2 (.inr held.1))

theorem Vacant.users (vacant : Vacant t) (library : LibrarySound t)
    (unused : ∀ i, (t.typeSlot i).users = 0) : UsersCounted t where
  library := library
  users := fun i => by
    have none_uses := PerHead.countP_congr (p := t.monitors) (q := t.monitors) (f := (·.uses i))
      (g := fun _ => false) fun h => by
        change (t.monitor h).uses i = false
        rw [Monitor.uses, vacant.inactive, Bool.false_and]
    rw [unused, none_uses]; simp
  copies := fun h _ _ active => by rw [vacant.inactive] at active; cases active
  named := fun n i named => by rw [State.typeAt, vacant.undefined] at named; cases named

theorem vacant_reset (pending : List Instr) (clock : Nat) (held estop : Bool) :
    Vacant { State.reset with
      pending := pending, clock := clock, resetHeld := held, estop := estop } where
  heads := fun h => by cases h <;> exact .idle
  queue := rfl
  inactive := fun h => by cases h <;> rfl
  none_waits := fun h => by cases h <;> exact nofun
  undefined := fun n => by simp [State.site, State.reset]
  unheld := fun z => by simp [State.holder, State.reset]

theorem librarySound_reset (pending : List Instr) (clock : Nat) (held estop : Bool) :
    LibrarySound { State.reset with
      pending := pending, clock := clock, resetHeld := held, estop := estop } := fun i => by
  simpa [State.typeSlot, State.reset] using SlotSound.reset

/-- The library after the release of a user. -/
theorem State.releaseUser_typeSlot (i j : Fin 48) : (s.releaseUser i).state.typeSlot j =
    if j = i then (s.typeSlot i).release else s.typeSlot j := by
  obtain released | released := s.releaseUser_eq i <;> rw [released]
  · simp
  · simp only [State.typeSlot, State.dropBroken_library]
    exact State.setType_typeSlot ..

/-- A type that nobody uses and that is not DRAINING. -/
def TypeSlot.settled (slot : TypeSlot) : Prop := slot.users = 0 ∧ slot.state ≠ .draining

theorem TypeSlot.settled.release {slot : TypeSlot} (settled : slot.settled) : slot.release = slot := by
  obtain ⟨unused, steady⟩ := settled
  rw [TypeSlot.release, if_neg fun last => steady last.1]
  cases slot
  simp_all

theorem releaseUser_settled (settled : ∀ j, (s.typeSlot j).settled) (i j : Fin 48) :
    (s.releaseUser i).state.typeSlot j = s.typeSlot j := by
  rw [State.releaseUser_typeSlot]
  split
  case isTrue same => rw [same, (settled i).release]
  case isFalse => rfl

/-- A warm reset that has cleared the library's users leaves it as it is (R41). -/
theorem resetHead_settled (settled : ∀ j, (s.typeSlot j).settled) (h : Head) (j : Fin 48) :
    (s.resetHead h).typeSlot j = s.typeSlot j := by
  have before (i : Fin 48) : ((s.returnSite h).freeZones h).typeSlot i = s.typeSlot i := by
    simp [State.typeSlot]
  have endArmed : (s.endArmed h).typeSlot j = s.typeSlot j := by
    unfold State.endArmed State.releaseUserOf
    split
    · rw [State.toIdle_typeSlot, releaseUser_settled fun i => (before i).symm ▸ settled i, before]
    · rw [State.toIdle_typeSlot, before]
  unfold State.resetHead
  split_ifs
  · unfold State.revoke
    split
    · split
      · exact endArmed
      · simpa [State.eventRevoked] using endArmed
    · exact endArmed
  · unfold State.abortStroke
    simp only
    split
    · simpa [State.eventAborted] using releaseUser_settled
        (s := (s.setMonitor h _).changeSite _ _) (by simpa using settled) _ j
    · rfl
  · rfl

theorem resetHeads_settled (settled : ∀ j, (s.typeSlot j).settled) (hs : List Head) (j : Fin 48) :
    (hs.foldl State.resetHead s).typeSlot j = s.typeSlot j := by
  induction hs generalizing s with
  | nil => rfl
  | cons h hs ih =>
    rw [List.foldl_cons, ih fun i => by rw [resetHead_settled settled]; exact settled i,
      resetHead_settled settled]

end Sys2Proof.Machine

end

section
/-! Every step keeps the laws of zones and of users: each operation of `Kept` leaves the law of sites, and
keeps the two others where they held. -/

namespace Sys2Proof.Machine

variable {s t u : State} {a : Option Head}

/-! ### UNLOAD (R52) -/

/-- The claims that UNLOAD drops, and the pass it brings. -/
theorem LawsKept.dropSite (law : ClaimLaw a s) (n : Fin 96) (p : Prop) [Decidable p] :
    LawsKept a s (if p then (s.dropAll none .siteChanged (s.waitingOnSite n)).pass none
      else s.dropAll none .siteChanged (s.waitingOnSite n)) := by
  have dropped := LawsKept.dropWaiting law none .siteChanged fun e => e.claim.site == n
  split
  · exact dropped.trans (.pass dropped.claims none)
  · exact dropped

/-- The claim on a site ended by its UNLOAD (R52, R81). -/
theorem LawsKept.unloadClaimed (law : ClaimLaw none s) {n : Fin 96} {e : SiteEntry} {h : Head}
    {g : GrantFrom} (site : s.site n = some e) (held : e.state = .claimed h g) :
    LawsKept none s ((s.setSite n (some e.unload)).revoke h .siteChanged) := by
  obtain ⟨armed, c, claim, rfl⟩ := (law.claimed n h).1 ⟨e, g, site, held⟩
  have active : (s.monitor h).state.active = true := (HeadState.active_iff _).2 (.inl armed)
  obtain ⟨w, copy⟩ := Option.isSome_iff_exists.1
    ((law.heads h).claimed (by simp [armed]) (by simp [armed])).2
  have ended : LawsKept none s ((s.setSite c.site (some e.unload)).endArmed h) := by
    rw [State.endArmed_eq (w := w) (by simpa using copy), State.returnSite, State.setSite_monitor, claim]
    refine .releaseUser law active claim copy ?_ fun j => ?_
    · exact {
        queue := by simp
        monitor := fun j other => by simp [other]
        ended := .inl (by simp; rfl)
        sites := fun n other => by simp [other]
        site := fun e' site' => by
          cases site.symm.trans site'
          exact ⟨e.unload, by simp [SiteEntry.unclaim, SiteEntry.unload],
            fun _ _ => ⟨nofun, nofun⟩, rfl, rfl⟩
        holder := .inl fun z => by
          rw [State.setType_holder, State.toIdle_holder, State.freeZones_holder,
            State.freeZones_holder, State.changeSite_holder, State.setSite_holder]
        typeSlots := fun i other => by simp [other]
        typeSlot := by simp
        board := by simp
        estop := by simp }
    · rw [State.toIdle_monitor]
      split
      · exact .idle
      · simpa using law.heads j
  unfold State.revoke
  split
  · exact ended.trans (.event ended.claims ..)
  · exact ended

theorem LawsKept.unloadSite (law : ClaimLaw none s) (n : Fin 96) {e : SiteEntry}
    (site : s.site n = some e) (taken : e.state.unloadable = true) :
    LawsKept none s ((s.setSite n (some e.unload)).endSiteClaims n e.state.claimant) := by
  cases state : e.state
  case claimed h g =>
    have revoked := LawsKept.unloadClaimed law site state
    unfold State.endSiteClaims
    exact revoked.trans (.dropSite revoked.claims n _)
  case empty => rw [state] at taken; cases taken
  case pressing h g => rw [state] at taken; cases taken
  all_goals
    have emptied : LawsKept none s (s.setSite n (some e.unload)) := by
      refine .setSite law n (fun e' site' => ?_) (fun _ _ => ⟨nofun, nofun⟩) (by simp [site])
        fun counted => counted.named n e.typeNo (by simp [State.typeAt, site])
      cases site.symm.trans site'
      rw [state]
      exact fun _ _ => ⟨nofun, nofun⟩
    unfold State.endSiteClaims
    exact emptied.trans (.dropSite emptied.claims n _)

/-! ### WARM_RESET (R175) -/

@[simp] theorem State.resetLibrary_queue : s.resetLibrary.queue = s.queue := by
  rw [State.resetLibrary]

@[simp] theorem State.resetLibrary_monitors : s.resetLibrary.monitors = s.monitors := by
  rw [State.resetLibrary]

@[simp] theorem State.resetLibrary_typeSlot (i : Fin 48) :
    s.resetLibrary.typeSlot i = (s.typeSlot i).warmReset := by
  simp [State.resetLibrary, State.typeSlot]

@[simp] theorem State.closeBoard_typeSlot (i : Fin 48) : s.closeBoard.typeSlot i = s.typeSlot i := by
  rw [State.typeSlot, State.closeBoard_library]; rfl

@[simp] theorem State.closeBoard_site (n : Fin 96) : s.closeBoard.site n = none := by
  simp [State.closeBoard, State.site]

@[simp] theorem State.clearSession_queue : s.clearSession.queue = s.queue := by
  rw [State.clearSession]

@[simp] theorem State.clearSession_site (n : Fin 96) : s.clearSession.site n = s.site n := by
  rw [State.clearSession]; rfl

@[simp] theorem State.clearSession_typeSlot (i : Fin 48) : s.clearSession.typeSlot i = s.typeSlot i := by
  rw [State.clearSession]; rfl

@[simp] theorem State.clearSession_holder (z : Fin 32) : s.clearSession.holder z = none := by
  simp [State.clearSession, State.holder]

/-- The sites after the end of an armed claim (R57). -/
theorem State.endArmed_site (h : Head) (n : Fin 96) :
    (s.endArmed h).site n = (s.returnSite h).site n := by
  unfold State.endArmed State.releaseUserOf
  split <;> simp

theorem State.revoke_site (h : Head) (r : ClaimReason) (n : Fin 96) :
    (s.revoke h r).site n = (s.endArmed h).site n := by
  unfold State.revoke
  split
  · split <;> rfl
  · rfl

theorem abortStroke_site_none (undefined : ∀ n, s.site n = none) (h : Head) (c : Cause)
    (further : List Cause) (n : Fin 96) : (s.abortStroke h c further).state.site n = none := by
  unfold State.abortStroke
  simp only
  split
  · simp only [State.eventAborted, State.event_site, State.setFront_site, State.releaseUser_site,
      State.changeSite_site, State.setMonitor_site, undefined, Option.map_none, ite_self]
  · exact undefined n

theorem resetHead_site_none (undefined : ∀ n, s.site n = none) (h : Head) (n : Fin 96) :
    (s.resetHead h).site n = none := by
  unfold State.resetHead
  split_ifs
  · rw [State.revoke_site, State.endArmed_site, State.returnSite]
    split
    · rw [State.changeSite_site, undefined, undefined, Option.map_none, ite_self]
    · exact undefined n
  · exact abortStroke_site_none undefined h _ _ n
  · exact undefined n

/-- The ends of a warm reset leave a vacant state where they find no claim waiting and no site. -/
theorem resetHeads_vacant (hs : List Head) (sound : HeadsSound s) (empty : s.queue = [])
    (undefined : ∀ n, s.site n = none) (noWait : ∀ j, (s.monitor j).state ≠ .waiting) :
    (hs.foldl State.resetHead s).queue = [] ∧ (∀ n, (hs.foldl State.resetHead s).site n = none) ∧
      (∀ j, ((hs.foldl State.resetHead s).monitor j).state ≠ .waiting) ∧
      HeadsSound (hs.foldl State.resetHead s) := by
  induction hs generalizing s with
  | nil => exact ⟨empty, undefined, noWait, sound⟩
  | cons h hs ih =>
    refine ih ((RangesKept.resetHead h).heads sound) ?_ (resetHead_site_none undefined h)
      fun j => (resetHead_endsHead sound h).not_waiting j (noWait j)
    have fewer : (s.resetHead h).queue.length ≤ s.queue.length := by
      unfold State.resetHead
      split_ifs
      · exact revoke_queue_le h _
      · exact abortStroke_queue_le h _ _
      · exact Nat.le_refl _
    simpa [empty] using fewer

/-- The last clearing of a warm reset, once every claim and stroke has ended. -/
theorem vacant_clearSession (sound : HeadsSound s) (queue : s.queue = [])
    (undefined : ∀ n, s.site n = none) (noWait : ∀ j, (s.monitor j).state ≠ .waiting)
    (inactive : ∀ j, (s.monitor j).state.active = false) : Vacant s.clearSession where
  heads := fun h => by
    rw [State.clearSession_monitor]
    exact (sound h).withoutSlot (inactive h)
  queue := by rw [State.clearSession_queue, queue]
  inactive := fun j => by rw [State.clearSession_monitor]; exact inactive j
  none_waits := fun j => by rw [State.clearSession_monitor]; exact noWait j
  undefined := fun n => by rw [State.clearSession_site, undefined]
  unheld := State.clearSession_holder

/-- The state of a warm reset when the heads are ended: nothing waits, and no site is defined. -/
def State.unclaimed (s : State) : State :=
  (s.dropAll none .supervisorReset s.queue).resetLibrary.closeBoard

theorem State.warmReset_eq (s : State) :
    s.warmReset = (allHeads.foldl State.resetHead s.unclaimed).clearSession := by
  rw [State.warmReset, State.unclaimed]

theorem State.unclaimed_monitor (s : State) (j : Head) :
    s.unclaimed.monitor j = (s.dropAll none .supervisorReset s.queue).monitor j := by
  simp only [State.unclaimed, State.monitor, State.closeBoard_monitors, State.resetLibrary_monitors]

theorem State.unclaimed_queue (s : State) : s.unclaimed.queue = [] := by
  simp only [State.unclaimed, State.closeBoard_queue, State.resetLibrary_queue,
    State.dropAll_all_queue]

theorem State.unclaimed_site (s : State) (n : Fin 96) : s.unclaimed.site n = none := by
  rw [State.unclaimed, State.closeBoard_site]

theorem State.unclaimed_typeSlot (s : State) (i : Fin 48) :
    s.unclaimed.typeSlot i = (s.typeSlot i).warmReset := by
  rw [State.unclaimed, State.closeBoard_typeSlot, State.resetLibrary_typeSlot]
  simp [State.typeSlot]

theorem vacant_warmReset (law : SiteLaw s) : Vacant s.warmReset := by
  have claims := (siteLaw_iff.1 law).1
  have dropped := LawsKept.dropAll claims none .supervisorReset fun e mem =>
    List.mem_map_of_mem (f := (·.head)) mem
  have noWait (j : Head) : (s.unclaimed.monitor j).state ≠ .waiting := fun waits => by
    rw [State.unclaimed_monitor] at waits
    have := (dropped.claims.waiting j (by simp)).1 waits
    simp at this
  have sound : HeadsSound s.unclaimed := fun j => by
    rw [State.unclaimed_monitor]
    exact dropped.claims.heads j
  obtain ⟨queue, undefined, waits, sound'⟩ :=
    resetHeads_vacant allHeads sound s.unclaimed_queue s.unclaimed_site noWait
  rw [State.warmReset_eq]
  exact vacant_clearSession sound' queue undefined waits fun j =>
    RangesKept.resetHeads_end allHeads sound j (.inl (mem_allHeads j))

@[simp] theorem TypeSlot.repair_users (slot : TypeSlot) : slot.repair.users = slot.users := by
  unfold TypeSlot.repair
  split
  · simp only
    split <;> rfl
  · rfl

theorem TypeSlot.place_users (slot : TypeSlot) (r : TypeRecord) :
    (slot.place r).users = slot.users := by
  obtain ⟨-, h⟩ | ⟨-, -, -, h⟩ | ⟨-, -, h⟩ := slot.place_cases r <;> rw [h]

theorem TypeSlot.place_present (slot : TypeSlot) (r : TypeRecord) :
    (slot.place r).state ≠ .absent := by
  obtain ⟨draining, h⟩ | ⟨-, -, -, h⟩ | ⟨-, -, h⟩ := slot.place_cases r <;> rw [h]
  · simp [draining]
  · exact nofun
  · exact nofun

/-- The library after a warm reset (R41). -/
theorem warmReset_typeSlot (library : LibrarySound s) (i : Fin 48) :
    s.warmReset.typeSlot i = (s.typeSlot i).warmReset := by
  have settled (j : Fin 48) : (s.unclaimed.typeSlot j).settled := by
    rw [State.unclaimed_typeSlot]
    exact (library j).warmReset.2
  rw [State.warmReset_eq, State.clearSession_typeSlot, resetHeads_settled settled,
    State.unclaimed_typeSlot]

/-! ### The operations put together -/

/-- The law of sites in a state, and the laws of zones and of users where they held in another. -/
structure LawsFrom (s t : State) : Prop where
  site : SiteLaw t
  zones : ZonesHeld s → ZonesHeld t
  users : UsersCounted s → UsersCounted t

theorem LawsFrom.step (hs : LawsFrom s t) (kept : ClaimLaw none t → LawsKept none t u) :
    LawsFrom s u := by
  obtain ⟨claims, opens, board⟩ := siteLaw_iff.1 hs.site
  have kept := kept claims
  exact ⟨siteLaw_iff.2 ⟨kept.claims, kept.opens opens, kept.board board⟩, kept.zones ∘ hs.zones,
    kept.users ∘ hs.users⟩

/-- An event that ends every claim and stroke, taken in a state that has already lost what the claims
need: ESTOP, or a board that is ABORTING. -/
theorem LawsFrom.endEverything (hs : LawsFrom s t) (law : ClaimLaw none u)
    (board : SitesOnBoard u) (zones : ZonesHeld t → ZonesHeld u) (users : UsersCounted t → UsersCounted u)
    (r : ClaimReason) {c : Cause} (code : c.code ≤ 13) : LawsFrom s (u.endEverything r c) := by
  obtain ⟨kept, empty, quiet⟩ := LawsKept.endEverything law r code
  exact ⟨siteLaw_iff.2 ⟨kept.claims, .of_quiet empty quiet, kept.board board⟩,
    kept.zones ∘ zones ∘ hs.zones, kept.users ∘ users ∘ hs.users⟩

theorem lawsFrom (a : State) : Kept (LawsFrom a) where
  link l k hs _ := hs.step fun law => .setLink law l k
  front h f hs _ := hs.step fun law => .setFront law h f
  notBefore time hs := hs.step fun law => .of_monitors law rfl rfl rfl rfl rfl rfl rfl
  records rs hs := hs.step fun law => .of_monitors law rfl rfl rfl rfl rfl rfl rfl
  pass hs := hs.step fun law => .pass law none
  endArmed h hs armed := hs.step fun law => .endArmed law armed
  leaveQueue {s} h hs waiting := hs.step fun law => by
    obtain ⟨e, queued, own⟩ := List.mem_map.1 ((law.waiting h (by simp)).1 waiting)
    have dropped := LawsKept.dropEntry law none .linkDown queued
    rwa [State.dropEntry_linkDown, own] at dropped
  claimWaiting h c hs isOpen released idle := hs.step fun law => .claimWaiting law c isOpen released idle
  claimAtOnce h c hs isOpen released idle := hs.step fun law => by
    have joined := LawsKept.joinQueue law c isOpen released idle
    have passed := joined.trans (.pass joined.claims (some h))
    unfold State.claimAtOnce
    simp only
    split
    case isTrue armed => exact passed.trans (.arrived passed.claims (by rw [armed]; decide))
    case isFalse => exact passed.trans (.leaveQueue passed.claims)
  startStroke h c w hs armed claim _ := hs.step fun law => .startStroke law armed claim
  sample h rec hs := hs.step fun law => .takeSample law h rec
  abort h c hs inStroke := hs.step fun law =>
    .abortStroke law inStroke (List.pairwise_singleton ..) (by simp)
  strike h c hs code := hs.step fun law => .strike law h code
  freeHead h hs ended := hs.step fun law => .freeHead law ended
  closeIfAborted hs := hs.step fun law => .closeIfAborted law (siteLaw_iff.1 hs.site).2.1
  openBoard {s} serial bypass hold p hs noBoard := hs.step fun law => by
    obtain ⟨empty, inactive⟩ :=
      ClaimLaw.quiet_of_not_open (siteLaw_iff.1 hs.site).2.1 (by rw [noBoard]; decide)
    rw [State.openBoard_eq]
    exact .of_quiet law empty inactive rfl rfl rfl rfl fun n => by simp [State.site]
  endBoard {s} hs settled := hs.step fun law => by
    have dropped := LawsKept.dropAll law none .boardClosed fun e mem =>
      List.mem_map_of_mem (f := (·.head)) mem
    refine dropped.trans (.closeBoard dropped.claims (by simp) fun h => ?_)
    rw [State.dropAll_monitor]
    split
    · rfl
    · have := settled h
      simp only [HeadState.holdsBoard, Bool.or_eq_false_iff] at this
      rw [HeadState.active, this.1.1, this.1.2]
      rfl
  abortBoard {s} hs _ := by
    obtain ⟨law, -, -⟩ := siteLaw_iff.1 hs.site
    have ended := hs.endEverything (u := { s with board := { s.board with state := .aborting } })
      { law with } (fun noBoard => nomatch noBoard) (fun zones => { zones with })
      (fun users => { users with }) .boardAbort (c := .boardAbort) (by decide)
    exact ended.step fun law => .closeIfAborted law (siteLaw_iff.1 ended.site).2.1
  assertEstop {s} hs := by
    obtain ⟨law, -, board⟩ := siteLaw_iff.1 hs.site
    exact hs.endEverything (u := { s with estop := true }) { law with } board
      (fun zones => { zones with }) (fun users => { users with }) .estop (by decide)
  releaseEstop {s} hs := by
    obtain ⟨law, opens, board⟩ := siteLaw_iff.1 hs.site
    exact ⟨siteLaw_iff.2 ⟨{ law with }, ⟨fun some => ⟨(opens.waiting some).1, rfl⟩,
      fun h active => ⟨(opens.active h active).1, rfl⟩⟩, board⟩,
      fun zones => { hs.zones zones with }, fun users => { hs.users users with }⟩
  defineSite {s} n t x y zs hs isOpen definable present _ := hs.step fun law => by
    refine .setSite law n (fun e site => ?_) (fun _ _ => ⟨nofun, nofun⟩)
      (by rw [isOpen]; exact nofun) fun _ => present
    rw [State.definable, site, beq_iff_eq] at definable
    rw [definable]
    exact fun _ _ => ⟨nofun, nofun⟩
  loadSite {s} n e hs site empty := hs.step fun law => by
    refine .setSite law n (fun e' site' => ?_) (fun _ _ => ⟨nofun, nofun⟩) (by simp [site])
      fun counted => counted.named n e.typeNo (by simp [State.typeAt, site])
    cases site.symm.trans site'
    rw [empty]
    exact fun _ _ => ⟨nofun, nofun⟩
  unloadSite n e hs site taken := hs.step fun law => .unloadSite law n site taken
  place t r hs := hs.step fun law => .setType law t (fun sound => sound.place r)
    (fun _ => TypeSlot.place_users ..) fun absent => absurd absent (TypeSlot.place_present _ _)
  purge {s} t hs steady unnamed := by
    have unnamed' (n : Fin 96) (e : SiteEntry) (site : s.site n = some e) : e.typeNo ≠ t := fun same => by
      have named := (s.typeNamed_iff t).2 ⟨n, e, site, same⟩
      rw [unnamed] at named
      cases named
    have users (counted : UsersCounted s) := (userLaw_iff.2 ⟨hs.site, counted⟩).users_eq_zero unnamed'
    refine hs.step fun law => .setType law t (fun _ => .reset) (fun counted => (users counted).symm)
      fun _ => .inr fun n named => ?_
    obtain ⟨e, site, same⟩ := Option.map_eq_some_iff.1 named
    exact unnamed' n e site same
  reread {s} t hs := hs.step fun law =>
    .setType law t SlotSound.reread (fun _ => by simp) fun absent => .inl (by simpa using absent)
  repair {s} t hs draining still := hs.step fun law => .setType law t
    (fun sound => (sound.reread.repair (by rw [TypeSlot.reread_state, draining])).1)
    (fun _ => by simp) fun absent => nomatch still.symm.trans absent
  findBroken {s} t hs present steady := hs.step fun law => by
    have broken : LawsKept none s (s.setType t { (s.typeSlot t).reread with state := .broken }) :=
      .setType law t (fun sound => sound.reread.broken (by simpa using present) (by simpa using steady))
        (fun _ => by simp) nofun
    exact broken.trans (.dropWaiting broken.claims ..)
  failRepair {s} t hs draining failed := hs.step fun law => by
    have broken : LawsKept none s
        (s.setType t { (s.typeSlot t).reread.repair with state := .broken }) := by
      refine .setType law t (fun sound => ?_) (fun _ => by simp) nofun
      obtain ⟨repaired, present, active⟩ :=
        sound.reread.repair (by rw [TypeSlot.reread_state, draining])
      refine repaired.broken present fun still => ?_
      have := active still
      simp [failed still] at this
    exact broken.trans (.dropWaiting broken.claims ..)
  flip {s} t which word bit hs := hs.step fun law =>
    .setType law t (fun sound => sound.flip which word bit) (fun _ => by cases which <;> rfl)
      fun absent => .inl (by cases which <;> exact absent)
  warmReset {s} hs :=
    have vacant := vacant_warmReset hs.site
    ⟨vacant.siteLaw.1, fun _ => vacant.siteLaw.2, fun users => by
      have library := (hs.users users).library
      refine vacant.users (RangesKept.warmReset.library library) fun i => ?_
      rw [warmReset_typeSlot library]
      exact (library i).warmReset.2.1⟩
  hardwareReset hs :=
    have vacant := vacant_reset _ _ _ _
    ⟨vacant.siteLaw.1, fun _ => vacant.siteLaw.2,
      fun _ => vacant.users (librarySound_reset _ _ _ _) fun i => by simp [State.typeSlot, State.reset, TypeSlot.reset]⟩
  releaseReset phases hs := hs.step fun law => .of_monitors law rfl rfl rfl rfl rfl rfl rfl

/-- What a step leaves of the laws, from a state that meets the law of sites. -/
theorem lawsFrom_step (law : SiteLaw s) (stepped : step s = .next t) : LawsFrom s t :=
  (lawsFrom s).step (fun _ hs => hs.step fun law => .of_monitors law rfl rfl rfl rfl rfl rfl rfl)
    ⟨law, id, id⟩ stepped

/-- Settles O57: the operations leave the law of sites, and the zones of each claim (`lawsFrom`). -/
theorem everyStepKeepsTheZoneLaw : Obligations.EveryStepKeepsTheZoneLaw := by
  intro s t stepped law
  obtain ⟨sites, zones⟩ := zoneLaw_iff.1 law
  have kept := lawsFrom_step sites stepped
  exact zoneLaw_iff.2 ⟨kept.site, kept.zones zones⟩

/-- Settles O59: the operations leave the law of sites, and the count of each type (`lawsFrom`). -/
theorem everyStepKeepsTheUserLaw : Obligations.EveryStepKeepsTheUserLaw := by
  intro s t stepped law
  obtain ⟨sites, users⟩ := userLaw_iff.1 law
  have kept := lawsFrom_step sites stepped
  exact userLaw_iff.2 ⟨kept.site, kept.users users⟩

end Sys2Proof.Machine

end

section
/-! The step, the waiting commands, the reset and the front ends: obligations O1, O2, O3, O54, O7, O9 and
O10. -/

namespace Sys2Proof.Machine

variable {s t : State}

/-! ### The step and the waiting commands -/

/-- The due events of a quiet time are at or after it (R76). -/
theorem State.quietUntil.le_due {time : Nat} (quiet : s.quietUntil time) (h : Head) (n : Nat)
    (due : s.dueEvent h = some n) : time ≤ eventTime n := by
  obtain ⟨armed, granted, grant, rfl⟩ := (s.dueEvent_eq_some h n).1 due
  exact quiet h granted _ armed grant (s.expiryEvent_bounds granted).1

theorem State.quietUntil.advance {time : Nat} (quiet : s.quietUntil time) :
    s.advance time = s.notBefore time := s.advance_of_none_due quiet.le_due

/-- Settles O1: the queue is matched by the step, and a quiet microsecond passes over no expiry. -/
theorem stepRunsTheFrontCommand : Obligations.StepRunsTheFrontCommand := by
  refine ⟨fun c rest s queue => by rw [step, queue], fun s queue quiet => ?_⟩
  have later : max s.clock (s.clock + 1) = s.clock + 1 := Nat.max_eq_right (Nat.le_succ _)
  have idle : step s = .next s.tick := by rw [step, queue]
  rw [idle, State.tick, quiet.advance, State.notBefore, later]

/-- Every operation leaves the waiting commands (log 1). -/
theorem pendingKept (cs : List Instr) : Kept fun t => t.pending = cs where
  link l k hs _ := by simpa using hs
  front h f hs _ := by simpa using hs
  notBefore _ hs := by simpa using hs
  records _ hs := hs
  pass hs := by simpa using hs
  endArmed h hs _ := by simpa using hs
  leaveQueue h hs _ := by simpa using hs
  claimWaiting h c hs _ _ _ := by simpa [State.joinQueue] using hs
  claimAtOnce {s} h c hs _ _ _ := by
    have passed : ((s.joinQueue h c).pass (some h)).pending = cs := by simpa [State.joinQueue] using hs
    simp only [State.claimAtOnce]
    split
    · exact passed
    · simpa using passed
  startStroke h c w hs _ _ _ := by simpa [State.startStroke] using hs
  sample h rec hs := by simpa using hs
  abort h c hs _ := by simpa using hs
  strike h c hs _ := by simpa using hs
  freeHead h hs _ := by simpa using hs
  closeIfAborted hs := by simpa using hs
  openBoard serial bypass hold p hs _ := by simpa [State.openBoard_eq] using hs
  endBoard hs _ := by simpa using hs
  abortBoard hs _ := by simpa using hs
  assertEstop hs := by simpa using hs
  releaseEstop hs := hs
  defineSite _ _ _ _ _ hs _ _ _ _ := by simpa using hs
  loadSite _ _ hs _ _ := by simpa using hs
  unloadSite _ _ hs _ _ := by simpa using hs
  place _ _ hs := by simpa using hs
  purge _ hs _ _ := by simpa using hs
  reread _ hs := by simpa using hs
  repair _ hs _ _ := by simpa using hs
  findBroken _ hs _ _ := by simpa using hs
  failRepair _ hs _ _ := by simpa using hs
  flip _ _ _ _ hs := by simpa using hs
  warmReset hs := by simpa using hs
  hardwareReset hs := hs
  releaseReset _ hs := hs

/-- Settles O2: each operation that a command is made of leaves the waiting commands. -/
theorem commandsKeepTheWaitingCommands : Obligations.CommandsKeepTheWaitingCommands :=
  fun c s => (pendingKept s.pending).exec c rfl

/-! ### Reset -/

theorem State.monitor_reset (h : Head) : State.reset.monitor h = .idle := by cases h <;> rfl

theorem State.link_reset (l : Link) : State.reset.link l = .reset := by
  cases l with
  | head h => cases h <;> rfl
  | cell => rfl

theorem State.front_reset (h : Head) : State.reset.front h = .reset h := by cases h <;> rfl

/-- Settles O54: the reset state is vacant, each of its blocks is in its reset state, and none of its
heads owes a record. -/
theorem resetStateIsSound : Obligations.ResetStateIsSound := by
  have vacant : Vacant .reset := vacant_reset [] 0 false false
  have law := vacant.siteLaw
  have users := vacant.users (librarySound_reset [] 0 false false) fun i => by
    simp [State.typeSlot, State.reset, TypeSlot.reset]
  refine ⟨fun l => ?_, fun h => ?_, fun n e site => ?_, zoneLaw_iff.2 law, ?_,
    userLaw_iff.2 ⟨law.1, users⟩, ?_⟩
  · rw [State.link_reset]; exact .reset
  · rw [State.front_reset]; exact .reset h
  · rw [vacant.undefined] at site; cases site
  · exact { toClaimsSound := law.1.toClaimsSound, room := by decide
            unreserved := fun h halted => by rw [State.monitor_reset] at halted; cases halted }
  · exact { toClaimsSound := law.1.toClaimsSound
            timers := fun h _ _ armed => by rw [State.monitor_reset] at armed; cases armed }

/-- Settles O3: the reset is `State.reset` but for the commands and the inputs kept, and RESET guards
the commands of the samples, the encoder and the release. -/
theorem hardwareResetClearsTheBlocks : Obligations.HardwareResetClearsTheBlocks := by
  refine ⟨fun s => ⟨_, rfl, rfl, rfl, rfl, fun i => ?_, rfl, fun n => ?_, rfl, fun z => ?_, rfl,
    State.monitor_reset, fun h => ?_, rfl, rfl, rfl, fun l => ?_, fun h => ?_⟩,
    fun s held => ⟨fun phases => ?_, fun h conv => ?_, fun h seen => ?_⟩, fun phases s released => ?_⟩
  · simp [State.typeSlot, State.reset, TypeSlot.reset]
  · simp [State.site, State.reset]
  · simp [State.holder, State.reset]
  · cases h <;> rfl
  · cases l with
    | head h => cases h <;> exact ⟨rfl, rfl, rfl, rfl, rfl⟩
    | cell => exact ⟨rfl, rfl, rfl, rfl, rfl⟩
  · cases h <;> exact ⟨rfl, rfl, rfl, rfl, rfl, rfl, rfl, rfl, rfl, rfl, rfl, rfl, rfl, rfl, rfl⟩
  · change execResetReleased phases s = _
    rw [execResetReleased, if_pos held]
    rfl
  · change execSampleComplete h conv s = _
    rw [execSampleComplete, if_pos held]
  · change execEncoderTransition h seen s = _
    rw [execEncoderTransition, if_pos held]
  · change execResetReleased phases s = _
    rw [execResetReleased, released]
    rfl

/-! ### The tare tracker -/

/-- The tracker's step with the decision of R15 written out. -/
theorem Tare.step_eq (t : Tare) (hysteresis ns : Nat) (g : Int) :
    t.step hysteresis ns g =
      if hysteresis < (g - t.candidate).natAbs then
        { t with candidate := g, run := 0, state := .settling }
      else if t.run + 1 < ns then { t with run := t.run + 1 }
      else if t.run + 1 = ns then ({ t with run := ns }).adopt hysteresis
      else t := by
  unfold Tare.step
  split
  · rfl
  · split_ifs <;> first | rfl | omega

/-- The value that an abort or a verdict leaves: it restarts the tracker alone (R16). -/
theorem State.abortStroke_tare (s : State) (h : Head) (cause : Cause) (further : List Cause) :
    ((s.abortStroke h cause further).state.front h).tare.value = (s.front h).tare.value := by
  unfold State.abortStroke
  simp only
  split
  · simp [State.eventAborted, FrontEnd.restartTare, Tare.restart]
  · rfl

theorem State.giveVerdict_tare (s : State) (h : Head) :
    ((s.giveVerdict h).state.front h).tare.value = (s.front h).tare.value := by
  unfold State.giveVerdict
  simp only
  split
  · simp [State.eventVerdict, FrontEnd.restartTare, Tare.restart]
  · rfl

/-- The tare is frozen through the work on a stroke sample (R14). -/
theorem State.strokeSample_tare (s : State) (h : Head) (rec : SampleRecord) :
    ((s.strokeSample h rec).state.front h).tare.value = (s.front h).tare.value := by
  unfold State.strokeSample
  simp only
  split
  case h_1 c w k claim copy stroke =>
    rw [← State.progressed, State.concludeSample]
    obtain ⟨link, -, made⟩ := s.progressed_cases h c
      ((k.countSample rec).progress (s.monitor h).state w.fields c.restrike rec)
    rw [made]
    split
    · simp [State.abortStroke_tare]
    · split
      · simp [State.giveVerdict_tare]
      · simp
  case h_2 => rfl

@[simp] theorem Passing.run_front (p : Passing) (h : Head) : p.run.front h = p.state.front h := by
  rw [State.front, Passing.run_fronts, State.front]

/-- Settles O7: the branches of the step, and the value through the work on a stroke sample. -/
theorem tareTrackerStep : Obligations.TareTrackerStep := by
  refine ⟨fun t hysteresis ns g held => ⟨fun far => ?_, fun near below => ?_, fun near reached out => ?_,
    fun near reached inside => ?_, fun near stood => ?_, fun value => ?_⟩,
    fun s t h conv inStroke ran => ?_⟩
  · rw [Tare.step_eq, if_pos far]
  · rw [Tare.step_eq, if_neg (Nat.not_lt.2 near), if_pos below]
  · rw [Tare.step_eq, if_neg (Nat.not_lt.2 near), if_neg reached.not_lt, if_pos reached]
    exact if_pos out
  · rw [Tare.step_eq, if_neg (Nat.not_lt.2 near), if_neg reached.not_lt, if_pos reached]
    refine (if_neg (Nat.not_lt.2 inside)).trans ?_
    split_ifs <;> rfl
  · rw [Tare.step_eq, if_neg (Nat.not_lt.2 near), if_neg (by omega), if_neg (by omega)]
  · rw [Tare.step_eq]
    split_ifs
    · exact value
    · exact value
    · exact (Tare.adopt_range (t := { t with run := ns }) value _).1
    · exact value
  · change Host.Outcome.next _ = _ at ran
    cases ran
    split
    · rfl
    · simp [State.completeSample, State.takeSample, inStroke, State.strokeSample_tare,
        FrontEnd.complete, FrontEnd.track]

/-! ### A sample outside a stroke -/

/-- The head states in which the Stroke Monitor does not act on a sample (R101). -/
theorem State.takeSample_of_idle {h : Head} (rec : SampleRecord)
    (outside : (s.monitor h).state.inStroke = false) (running : (s.monitor h).state ≠ .halted) :
    s.takeSample h rec = { state := s, due := false } := by
  rw [State.takeSample, if_neg (by simp [outside]), if_neg running]

theorem exec_sampleComplete (h : Head) (conv : PerCorner Conversions) (released : s.resetHeld = false) :
    exec (.sampleComplete h conv) s = .next (s.completeSample h conv) := by
  change execSampleComplete h conv s = _
  rw [execSampleComplete, released]
  rfl

/-- A sample that restarts the tracker (R16). -/
theorem SampleRecord.anyMarked (r : SampleRecord) : (r.anyNoisyRun || r.anySaturated) =
    r.corners.toList.any fun e => e.noisyRun || e.saturated := by
  rw [Bool.eq_iff_iff]
  simp only [SampleRecord.anyNoisyRun, SampleRecord.anySaturated, Bool.or_eq_true, List.any_eq_true,
    ← exists_or, ← and_or_left]

/-- Settles O9: outside a stroke the sample is kept and the tracker steps, and nothing takes it. -/
theorem sampleOutsideAStroke : Obligations.SampleOutsideAStroke := by
  intro h conv s released state
  have outside : (s.monitor h).state.inStroke = false := by
    obtain state | state | state | state := state <;> rw [state] <;> rfl
  have running : (s.monitor h).state ≠ .halted := by
    obtain state | state | state | state := state <;> rw [state] <;> exact nofun
  have noTilt (cs : PerCorner CornerEntry) : tiltOf (s.monitor h) cs = none :=
    tiltOf_of_state cs (by simp [HeadState.evaluatesTilt, outside, running])
  rw [exec_sampleComplete h conv released, State.completeSample]
  simp only
  rw [State.takeSample_of_idle _ (by simpa using outside) (by simpa using running)]
  simp only [Passing.run, FrontEnd.complete, FrontEnd.track, FrontEnd.countHeld, outside,
    SampleRecord.anyMarked,
    sampleRecord, noTilt, Bool.false_eq_true, if_false]
  rfl

/-! ### The encoder -/

theorem phaseOn_ne (p : Phase) : phaseOn p ≠ p := by
  rcases p with ⟨_ | _, _ | _⟩ <;> decide

theorem phaseOn_phaseOn_ne (p : Phase) : phaseOn (phaseOn p) ≠ p := by
  rcases p with ⟨_ | _, _ | _⟩ <;> decide

theorem both_eq (p : Phase) : (⟨!p.a, !p.b⟩ : Phase) = phaseOn (phaseOn p) := rfl

theorem phaseOn_injective {p q : Phase} (same : phaseOn p = phaseOn q) : p = q := by
  rcases p with ⟨_ | _, _ | _⟩ <;> rcases q with ⟨_ | _, _ | _⟩ <;> simp_all [phaseOn]

namespace FrontEnd

variable {f : FrontEnd} {seen : Phase}

theorem observe_same (same : seen = f.phase) : f.observe seen = f := by
  rw [observe, if_pos same, same]

theorem observe_on (on : seen = phaseOn f.phase) : f.observe seen =
    if f.position < 8388607 then { f with phase := seen, position := f.position + 1 }
    else { f with phase := seen }.illegal := by
  rw [observe, if_neg (by rw [on]; exact phaseOn_ne _), if_pos on]
  rfl

theorem observe_back (back : f.phase = phaseOn seen) : f.observe seen =
    if -8388608 < f.position then { f with phase := seen, position := f.position - 1 }
    else { f with phase := seen }.illegal := by
  rw [observe, if_neg (by rw [back]; exact (phaseOn_ne _).symm),
    if_neg (by rw [back]; exact (phaseOn_phaseOn_ne _).symm), if_pos back]
  rfl

theorem observe_both (both : seen = phaseOn (phaseOn f.phase)) :
    f.observe seen = { f with phase := seen }.illegal := by
  rw [observe, if_neg (by rw [both]; exact phaseOn_phaseOn_ne _),
    if_neg (by rw [both]; exact fun same => phaseOn_ne _ (phaseOn_injective same)),
    if_neg (by rw [both]; rcases f.phase with ⟨_ | _, _ | _⟩ <;> decide)]

end FrontEnd

theorem exec_encoderTransition (h : Head) (seen : Phase) (released : s.resetHeld = false) :
    exec (.encoderTransition h seen) s = .next (s.setFront h ((s.front h).observe seen)) := by
  change execEncoderTransition h seen s = _
  rw [execEncoderTransition, released]
  rfl

/-- Settles O10: the four places a phase can be observed at, one lemma for each. -/
theorem encoderCountsPhases : Obligations.EncoderCountsPhases := by
  intro h seen s released
  simp only [exec_encoderTransition h seen released]
  refine ⟨fun same => ?_, fun on below => ?_, fun back above => ?_, fun on top => ?_,
    fun back bottom => ?_, fun both => ?_⟩
  · rw [FrontEnd.observe_same same, State.setFront_self]
  · rw [FrontEnd.observe_on on, if_pos below]
  · rw [FrontEnd.observe_back back, if_pos above]
  · rw [FrontEnd.observe_on on, if_neg top.not_lt]; rfl
  · rw [FrontEnd.observe_back back, if_neg bottom.not_gt]; rfl
  · rw [FrontEnd.observe_both (both.trans (both_eq _))]; rfl

end Sys2Proof.Machine
end

section
/-! The Envelope Library (section 2): the layout of LOAD_TYPE, its refusals, the integrity of stored
records, READ_TYPE and the release of a user (obligations O13, O14, O17, O18 and O19). -/

namespace Sys2Proof.Machine

variable {s t : State}

/-! ### Requests of the cell link -/

/-- A request of the cell link whose effects neither read nor write that link (R169): they are those on
the state without the reply. -/
theorem State.request_cell {f : State → Answer} (stamps : Stamps f) {kind tag : Byte}
    {payload : List Byte} {st : Status} {bytes : List Byte} (takes : s.takes .cell = true)
    (short : payload.length ≤ 250) (link : t.cellLink = s.cellLink)
    (answer : ∀ k, f (s.withCell k) = ⟨t.withCell k, { status := st, fields := bytes }⟩) :
    s.request .cell kind tag payload f = t.withReply .cell kind tag st bytes := by
  refine State.request_of (st := st) (bytes := bytes) stamps takes short ?_
  rw [s.withReply_cell, t.withReply_cell, answer, State.withReply_cellLink, State.withReply_cellLink,
    link]

/-! ### The layout of LOAD_TYPE (R176, R178) -/

theorem map_groupBytes_length (gs : List Group) : ∀ bytes ∈ gs.map groupBytes, bytes.length = 10 := by
  simp only [List.mem_map]
  rintro _ ⟨g, -, rfl⟩
  rfl

/-- The entry of a group stands behind the fixed part and the entries before it. -/
theorem groupAt_typeBytes {t : Fin 48} {r : TypeRecord} (fits : RecordFits r) {k : Nat} {g : Group}
    (group : r.groups[k]? = some g) : groupAt (typeBytes t r) (38 + 10 * k) = g := by
  obtain ⟨rest, place⟩ := drop_flatten_of_length (map_groupBytes_length r.groups) (k := k)
    (xs := groupBytes g) (by simp [group])
  refine groupAt_of_drop (rest := rest) (fits.groups g (List.mem_of_getElem? group)) ?_
  rw [← List.drop_drop, drop_typeBytes, place]

/-- Settles O13: the record read back gives every field of the fixed part, and each group stands behind
the ones before it. -/
theorem typeRecordLayoutRoundTrips : Obligations.TypeRecordLayoutRoundTrips := by
  intro t r fits
  have back := recordOf_typeBytes t fits
  obtain ⟨part, pinTotal, contact, confirm, approach, -, start, search, slope, window, force,
    overtravel, dwell, tilt, floor, stall, stroke⟩ := (TypeRecord.mk.injEq ..).mp back
  have code : at32 (typeBytes t r) 1 = r.partCode.toNat := by
    simp only [typeBytes, List.append_assoc]
    exact u32_read r.partCode.isLt
  refine ⟨length_typeBytes t r, back, typeNo_typeBytes t r, code, pinTotal, contact, confirm, approach,
    groupCount_typeBytes t fits.bytes.2.2, start, search, slope, window, force, overtravel, dwell, tilt,
    floor, stall, stroke, fun k g group => ?_⟩
  obtain ⟨entry, pins, fmin, fmax, settle⟩ :=
    (Group.mk.injEq ..).mp (groupAt_typeBytes (t := t) fits group)
  exact ⟨entry, (congrArg (at16 _) (by omega)).trans pins, (congrArg (at16 _) (by omega)).trans fmin,
    (congrArg (at16 _) (by omega)).trans fmax, (congrArg (at16 _) (by omega)).trans settle⟩

/-! ### The record checks (R24) -/

/-- A failure at a record: the check it names fails, of the record alone or of the lowest group that
fails it. -/
def FailsAt (r : TypeRecord) (f : CheckFailure) : Prop :=
  (f.group = 0 → ¬ recordCheck r f.check) ∧
  (∀ k, f.group = k + 1 → (∃ g, r.groups[k]? = some g ∧ ¬ groupCheck r.groups k g f.check) ∧
    ∀ j g, j < k → r.groups[j]? = some g → groupCheck r.groups j g f.check)

/-- What the checks of R24 from `n` on, below `m`, find in a record: none fails, or a failure names the
lowest that does. -/
structure Judged (r : TypeRecord) (n m : Nat) (found : Option CheckFailure) : Prop where
  passed : found = none ↔ ∀ i, n ≤ i → i < m → checkHolds r i
  failed : ∀ f, found = some f →
    n ≤ f.check ∧ f.check < m ∧ (∀ i, n ≤ i → i < f.check → checkHolds r i) ∧ FailsAt r f

/-- One check. -/
theorem Judged.single {r : TypeRecord} {n : Nat} {found : Option CheckFailure}
    (passed : found = none ↔ checkHolds r n)
    (failed : ∀ f, found = some f → f.check = n ∧ FailsAt r f) : Judged r n (n + 1) found where
  passed := passed.trans ⟨fun holds i _ _ => by obtain rfl : i = n := by omega
                                                exact holds, fun all => all n le_rfl n.lt_succ_self⟩
  failed := fun f hf => by
    obtain ⟨rfl, fails⟩ := failed f hf
    exact ⟨le_rfl, Nat.lt_succ_self _, fun i _ _ => by omega, fails⟩

/-- One check, and the others after it where it passes. -/
theorem Judged.orElse {r : TypeRecord} {n m : Nat} {first others : Option CheckFailure} (lt : n < m)
    (single : Judged r n (n + 1) first) (rest : Judged r (n + 1) m others) :
    Judged r n m (first <|> others) := by
  cases found : first with
  | none =>
    have here := single.passed.1 found n le_rfl n.lt_succ_self
    have split (P : Nat → Prop) (hn : P n) (later : ∀ i, n + 1 ≤ i → P i) (i : Nat) (hi : n ≤ i) : P i := by
      rcases Nat.eq_or_lt_of_le hi with rfl | after
      · exact hn
      · exact later i after
    refine ⟨rest.passed.trans ⟨fun all => ?_, fun all i hi => all i (by omega)⟩, fun f hf => ?_⟩
    · exact split (fun i => i < m → checkHolds r i) (fun _ => here) all
    · obtain ⟨low, high, before, fails⟩ := rest.failed f hf
      exact ⟨by omega, high, split (fun i => i < f.check → checkHolds r i) (fun _ => here) before, fails⟩
  | some f =>
    obtain ⟨low, high, before, fails⟩ := single.failed f found
    refine ⟨iff_of_false nofun fun all => ?_, fun f' hf => ?_⟩
    · have := single.passed.2 fun i low high => all i low (by omega)
      rw [found] at this
      cases this
    · cases hf
      exact ⟨low, by omega, before, fails⟩

/-- A check of the record alone. -/
theorem Judged.ofRecord {r : TypeRecord} {n : Nat} {ok : Bool} (holds : ok = true ↔ recordCheck r n)
    (alone : ∀ k g, groupCheck r.groups k g n) : Judged r n (n + 1) (check n ok) :=
  .single ((check_eq_none_iff n ok).trans (holds.trans ⟨fun passes => ⟨passes, fun k g _ => alone k g⟩,
    fun both => both.1⟩)) fun f hf => by
    unfold check at hf
    split at hf
    · cases hf
    case isFalse fails =>
      cases hf
      exact ⟨rfl, fun _ => mt holds.2 fails, fun k none => nomatch none⟩

/-- A failure of a check made on each group names the lowest that fails it. -/
theorem checkEach_eq_some {n k : Nat} {ok : Group → Bool} {gs : List Group} {f : CheckFailure}
    (found : checkEach n ok k gs = some f) :
    f.check = n ∧ ∃ j g, f.group = k + j ∧ gs[j]? = some g ∧ ok g = false ∧
      ∀ i g', i < j → gs[i]? = some g' → ok g' = true := by
  induction gs generalizing k with
  | nil => cases found
  | cons g gs ih =>
    unfold checkEach at found
    split at found
    case isTrue passes =>
      obtain ⟨check, j, g', group, place, fails, before⟩ := ih found
      refine ⟨check, j + 1, g', by omega, place, fails, fun i g'' lt there => ?_⟩
      cases i with
      | zero => cases there; exact passes
      | succ i => exact before i g'' (by omega) there
    case isFalse fails =>
      cases found
      exact ⟨rfl, 0, g, rfl, rfl, by simpa using fails, fun i _ lt => absurd lt (Nat.not_lt_zero i)⟩

/-- A failure that names the lowest group that fails a check. -/
theorem failsAt_of_group {r : TypeRecord} {f : CheckFailure} {j : Nat} {g : Group}
    (group : f.group = j + 1) (place : r.groups[j]? = some g)
    (fails : ¬ groupCheck r.groups j g f.check)
    (before : ∀ i g', i < j → r.groups[i]? = some g' → groupCheck r.groups i g' f.check) :
    FailsAt r f := by
  refine ⟨fun none => by omega, fun k here => ?_⟩
  obtain rfl : k = j := by omega
  exact ⟨⟨g, place, fails⟩, before⟩

/-- A check made on each group by itself. -/
theorem Judged.ofGroups {r : TypeRecord} {n : Nat} {ok : Group → Bool}
    (holds : ∀ k g, ok g = true ↔ groupCheck r.groups k g n) (alone : recordCheck r n) :
    Judged r n (n + 1) (checkEach n ok 1 r.groups) := by
  refine .single ((checkEach_eq_none_iff n 1 ok r.groups).trans ⟨fun all => ⟨alone, fun k g place => ?_⟩,
    fun both g mem => ?_⟩) fun f hf => ?_
  · exact (holds k g).1 (all g (List.mem_of_getElem? place))
  · obtain ⟨k, place⟩ := List.getElem?_of_mem mem
    exact (holds k g).2 (both.2 k g place)
  · obtain ⟨rfl, j, g, group, place, fails, before⟩ := checkEach_eq_some hf
    refine ⟨rfl, failsAt_of_group (j := j) (by omega) place ?_ fun i g' lt there =>
      (holds i g').1 (before i g' lt there)⟩
    rw [← holds j g, fails]
    exact Bool.false_ne_true

/-- Check 11, which names G1 (log 14). -/
theorem Judged.ofFirst (r : TypeRecord) : Judged r 11 12 (checkFirst r.groups) := by
  have holds : checkFirst r.groups = none ↔ checkHolds r 11 := by
    unfold checkFirst checkHolds recordCheck groupCheck
    cases r.groups with
    | nil => simp
    | cons g gs =>
      simp only [ite_eq_left_iff, reduceCtorEq, imp_false, not_not, true_and]
      exact ⟨fun entry k g' place first => by subst first; cases place; exact entry,
        fun all => all 0 g rfl rfl⟩
  refine .single holds fun f hf => ?_
  unfold checkFirst at hf
  split at hf
  · cases hf
  case h_2 g gs groups =>
    split at hf
    · cases hf
    case isFalse fails =>
      cases hf
      exact ⟨rfl, failsAt_of_group (j := 0) (g := g) rfl (by rw [groups]; rfl)
        (fun passes => fails (passes rfl)) fun i _ lt => absurd lt (Nat.not_lt_zero i)⟩

/-- A group enters below the previous one, and not before its settle span is over (check 12). -/
def GroupsOrdered (p g : Group) : Prop := p.entry < g.entry ∧ p.entry + p.settle ≤ g.entry

theorem checkOrder_eq_none_iff (k : Nat) (gs : List Group) :
    checkOrder k gs = none ↔
      ∀ j p g, gs[j]? = some p → gs[j + 1]? = some g → GroupsOrdered p g := by
  induction gs generalizing k with
  | nil => simp [checkOrder]
  | cons p gs ih =>
    cases gs with
    | nil => simp [checkOrder]
    | cons g gs =>
      unfold checkOrder
      split
      case isTrue first =>
        rw [ih]
        refine ⟨fun all j p' g' before here => ?_, fun all j => all (j + 1)⟩
        cases j with
        | zero => cases before; cases here; exact first
        | succ j => exact all j p' g' before here
      case isFalse fails => exact iff_of_false nofun fun all => fails (all 0 p g rfl rfl)

theorem checkOrder_eq_some {k : Nat} {gs : List Group} {f : CheckFailure}
    (found : checkOrder k gs = some f) :
    f.check = 12 ∧ ∃ j p g, f.group = k + j + 1 ∧ gs[j]? = some p ∧ gs[j + 1]? = some g ∧
      ¬ GroupsOrdered p g ∧
      ∀ i p' g', i < j → gs[i]? = some p' → gs[i + 1]? = some g' → GroupsOrdered p' g' := by
  induction gs generalizing k with
  | nil => cases found
  | cons p gs ih =>
    cases gs with
    | nil => cases found
    | cons g gs =>
      unfold checkOrder at found
      split at found
      case isTrue first =>
        obtain ⟨check, j, p', g', group, before, here, fails, others⟩ := ih found
        refine ⟨check, j + 1, p', g', by omega, before, here, fails, fun i p'' g'' lt hp hg => ?_⟩
        cases i with
        | zero => cases hp; cases hg; exact first
        | succ i => exact others i p'' g'' (by omega) hp hg
      case isFalse fails =>
        cases found
        exact ⟨rfl, 0, p, g, rfl, rfl, rfl, fails, fun i _ _ lt => absurd lt (Nat.not_lt_zero i)⟩

/-- Check 12 of the groups in terms of the group before. -/
theorem groupCheck_order (gs : List Group) (k : Nat) (g : Group) :
    groupCheck gs k g 12 ↔ ∀ j p, k = j + 1 → gs[j]? = some p → GroupsOrdered p g := by
  change (∀ p, 1 ≤ k → gs[k - 1]? = some p → GroupsOrdered p g) ↔ _
  constructor
  · rintro all j p rfl before
    exact all p (by omega) before
  · intro all p later before
    exact all (k - 1) p (by omega) before

theorem Judged.ofOrder (r : TypeRecord) : Judged r 12 13 (checkOrder 1 r.groups) := by
  refine .single ((checkOrder_eq_none_iff 1 r.groups).trans ⟨fun all => ⟨trivial, fun k g here => ?_⟩,
    fun both j p g before here => ?_⟩) fun f hf => ?_
  · rw [groupCheck_order]
    rintro j p rfl before
    exact all j p g before here
  · exact (groupCheck_order ..).1 (both.2 (j + 1) g here) j p rfl before
  · obtain ⟨check, j, p, g, group, before, here, fails, others⟩ := checkOrder_eq_some hf
    refine ⟨check, failsAt_of_group (j := j + 1) (g := g) (by omega) here ?_ fun i g' lt place => ?_⟩
    · rw [check, groupCheck_order]
      exact fun all => fails (all j p rfl before)
    · rw [check, groupCheck_order]
      rintro i' p' rfl hp
      exact others i' p' g' (by omega) hp place

/-- The end of the settle span of the last group, where there is one (check 14). -/
theorem lastSettled_le_iff (gs : List Group) (n : Nat) :
    lastSettled gs ≤ n ↔ ∀ g, gs.getLast? = some g → g.entry + g.settle ≤ n := by
  unfold lastSettled
  cases gs.getLast? <;> simp

/-- The checks of R24 in their order. -/
theorem judged_firstFailure (r : TypeRecord) : Judged r 1 25 (firstFailure r) := by
  unfold firstFailure
  have alone {n : Nat} {ok : Bool} (holds : ok = true ↔ recordCheck r n)
      (trivially : ∀ k g, groupCheck r.groups k g n) := Judged.ofRecord holds trivially
  refine .orElse (by decide) (alone (within_iff ..) fun _ _ => trivial) ?_
  refine .orElse (by decide) (alone (within_iff ..) fun _ _ => trivial) ?_
  refine .orElse (by decide) (alone (within_iff ..) fun _ _ => trivial) ?_
  refine .orElse (by decide) (alone (within_iff ..) fun _ _ => trivial) ?_
  refine .orElse (by decide) (alone (within_iff ..) fun _ _ => trivial) ?_
  refine .orElse (by decide) (.ofGroups (fun _ g => by simp [within_iff, groupCheck]) trivial) ?_
  refine .orElse (by decide) (.ofGroups (fun _ g => by simp [within_iff, groupCheck]) trivial) ?_
  refine .orElse (by decide) (.ofGroups (fun _ g => by simp [within_iff, groupCheck]) trivial) ?_
  refine .orElse (by decide) (.ofGroups (fun _ g => by simp [groupCheck]) trivial) ?_
  refine .orElse (by decide) (.ofGroups (fun _ g => by simp [within_iff, groupCheck]) trivial) ?_
  refine .orElse (by decide) (.ofFirst r) ?_
  refine .orElse (by decide) (.ofOrder r) ?_
  refine .orElse (by decide) (alone decide_eq_true_iff fun _ _ => trivial) ?_
  refine .orElse (by decide) (alone (by
    simp [within_iff, lastSettled_le_iff, recordCheck]) fun _ _ => trivial) ?_
  refine .orElse (by decide) (alone (within_iff ..) fun _ _ => trivial) ?_
  refine .orElse (by decide) (alone (within_iff ..) fun _ _ => trivial) ?_
  refine .orElse (by decide) (alone (within_iff ..) fun _ _ => trivial) ?_
  refine .orElse (by decide) (alone (within_iff ..) fun _ _ => trivial) ?_
  refine .orElse (by decide) (alone (by simp [within_iff, recordCheck]) fun _ _ => trivial) ?_
  refine .orElse (by decide) (alone (by simp [within_iff, recordCheck]) fun _ _ => trivial) ?_
  refine .orElse (by decide) (alone (within_iff ..) fun _ _ => trivial) ?_
  refine .orElse (by decide) (alone (by simp [within_iff, recordCheck]) fun _ _ => trivial) ?_
  refine .orElse (by decide) (alone (within_iff ..) fun _ _ => trivial) ?_
  exact alone (within_iff ..) fun _ _ => trivial

/-! ### The refusals of LOAD_TYPE (R23) -/

theorem loadTypeAnswer_short {payload : List Byte} (s : State) (short : payload.length < 38) :
    loadTypeAnswer payload s = s.turnDown .badLength := if_pos short

/-- LOAD_TYPE of a payload with a fixed part (R23). -/
theorem loadTypeAnswer_long {payload : List Byte} (s : State) (long : 38 ≤ payload.length) :
    loadTypeAnswer payload s =
      match typeOf (at8 payload 0) with
      | none => s.turnDown .badValue
      | some t =>
        if at8 payload 12 < 1 ∨ 8 < at8 payload 12 then s.answer .envelopeInvalid (u8 1 ++ u8 0)
        else if payload.length ≠ 38 + 10 * at8 payload 12 then s.turnDown .badLength
        else s.loadRecord t (recordOf payload) := (if_neg (Nat.not_lt.2 long)).trans rfl

theorem typeOf_of_le {n : Nat} (le : n ≤ 47) : ∃ t, typeOf n = some t :=
  ⟨⟨n, by omega⟩, dif_pos (by omega)⟩

theorem typeOf_eq_none {n : Nat} (far : 47 < n) : typeOf n = none := dif_neg (by omega)

theorem exec_loadType_turnDown {payload : List Byte} {st : Status} {tag : Byte}
    (takes : s.takes .cell = true) (short : payload.length ≤ 250)
    (refused : loadTypeAnswer payload (s.withReply .cell 40 tag st []) =
      (s.withReply .cell 40 tag st []).turnDown st) :
    exec (.loadType tag payload) s = .next (s.withReply .cell 40 tag st []) :=
  next_turnDown (loadTypeAnswer_stamps payload) takes short refused

/-- Settles O14: the checks judged one after the other, and the refusals by the branches of LOAD_TYPE. -/
theorem loadTypeRefusals : Obligations.LoadTypeRefusals := by
  refine ⟨fun r => ?_, fun r f failure => ?_, fun tag payload s takes room =>
    ⟨fun short => ?_, fun long far => ?_, fun long type count => ?_, fun long type one few wrong => ?_,
      fun type one few long f failure => ?_⟩⟩
  · exact (judged_firstFailure r).passed.trans
      ⟨fun all n low high => all n low (by omega), fun all n low high => all n low (by omega)⟩
  · obtain ⟨low, high, before, alone, groups⟩ := (judged_firstFailure r).failed f failure
    exact ⟨low, by omega, before, alone, groups⟩
  · exact exec_loadType_turnDown takes room (loadTypeAnswer_short _ short)
  · refine exec_loadType_turnDown takes room ?_
    rw [loadTypeAnswer_long _ long, typeOf_eq_none far]
  · obtain ⟨t, number⟩ := typeOf_of_le type
    refine congrArg _ (State.request_answer (loadTypeAnswer_stamps payload) takes room ?_)
    rw [loadTypeAnswer_long _ long, number]
    exact if_pos (by omega)
  · obtain ⟨t, number⟩ := typeOf_of_le type
    refine exec_loadType_turnDown takes room ?_
    rw [loadTypeAnswer_long _ long, number]
    exact (if_neg (by omega)).trans (if_pos wrong)
  · obtain ⟨t, number⟩ := typeOf_of_le type
    refine congrArg _ (State.request_answer (loadTypeAnswer_stamps payload) takes room ?_)
    rw [loadTypeAnswer_long _ (by omega), number]
    refine (if_neg (by omega)).trans ((if_neg (not_not.2 long)).trans ?_)
    rw [State.loadRecord, failure]

/-! ### Record integrity (R33) -/

namespace StoredRecord

variable {r : StoredRecord}

theorem flippedIn_pos {f : Nat × Nat} (flipped : f ∈ r.flips) : 0 < r.flippedIn f.1 :=
  List.countP_pos_iff.2 ⟨f, flipped, by simp⟩

/-- A stored record is sound exactly where a read of it succeeds (R33). -/
theorem readable_iff_sound : r.readable = true ↔ r.sound := by
  rw [readable_iff]
  constructor
  · intro few word
    by_contra many
    obtain ⟨f, flipped, here⟩ := List.countP_pos_iff.1 (show 0 < r.flippedIn word by omega)
    have := few f flipped
    rw [beq_iff_eq.1 here] at this
    omega
  · intro sound f _
    exact Nat.lt_succ_of_le (sound f.1)

theorem not_readable_of_not_sound (damaged : ¬ r.sound) : r.readable = false := by
  rw [Bool.eq_false_iff, ne_eq, readable_iff_sound]
  exact damaged

/-- The bits left after a read are those of the words with more than one (R33). -/
theorem mem_corrected (word bit : Nat) : (word, bit) ∈ r.corrected.flips ↔
    (word, bit) ∈ r.flips ∧ r.flippedIn word ≠ 1 := by
  simp only [corrected, uncorrectable, List.mem_filter, decide_eq_true_eq]
  refine and_congr_right fun flipped => ?_
  have : 0 < r.flippedIn word := flippedIn_pos flipped
  omega

/-- The words with one flipped bit. -/
def singleWords (r : StoredRecord) : List Nat :=
  (r.flips.filter fun f => r.flippedIn f.1 == 1).map (·.1)

theorem length_singleWords : r.singleWords.length = r.correctable := by
  rw [singleWords, List.length_map, ← List.countP_eq_length_filter]
  rfl

theorem mem_singleWords (w : Nat) : w ∈ r.singleWords ↔ r.flippedIn w = 1 := by
  simp only [singleWords, List.mem_map, List.mem_filter, beq_iff_eq]
  constructor
  · rintro ⟨f, ⟨-, one⟩, rfl⟩
    exact one
  · intro one
    obtain ⟨f, flipped, here⟩ := List.countP_pos_iff.1 (show 0 < r.flippedIn w by omega)
    rw [beq_iff_eq] at here
    exact ⟨f, ⟨flipped, here ▸ one⟩, here⟩

/-- Two flipped bits of one word are counted together. -/
theorem nodup_singleWords : r.singleWords.Nodup := by
  rw [singleWords, List.Nodup, List.pairwise_map, List.pairwise_iff_forall_sublist]
  intro f g both same
  have one : r.flippedIn f.1 = 1 := by
    have listed := both.subset (List.mem_cons_self ..)
    simpa using (List.mem_filter.1 listed).2
  have two : [f, g].countP (·.1 == f.1) = 2 := by simp [same]
  have le : [f, g].countP (·.1 == f.1) ≤ r.flippedIn f.1 :=
    (both.trans List.filter_sublist).countP_le
  omega

end StoredRecord

/-- Settles O17: the read's filter and count by the number of bits flipped in a word, and the one bit of
a fault put in or taken out. -/
theorem recordIntegrity : Obligations.RecordIntegrity := by
  refine ⟨fun r order => ⟨r.readable_iff_sound, r.mem_corrected, rfl,
    ⟨r.singleWords, r.nodup_singleWords, r.mem_singleWords, r.length_singleWords.symm⟩,
    fun readable => ⟨?_, r.correctable_of_readable readable⟩,
    fun word bit => ⟨order.flip word bit, rfl, fun w b => mem_toggleFlip order (w, b)⟩⟩,
    fun _ _ => rfl, fun t word bit s => ⟨rfl, rfl⟩⟩
  rw [r.corrected_of_readable readable]

/-! ### READ_TYPE (R38) -/

theorem readTypeAnswer_badLength {payload : List Byte} (s : State) (len : payload.length ≠ 1) :
    readTypeAnswer payload s = s.turnDown .badLength := if_pos len

theorem readTypeAnswer_badValue {b : Byte} (s : State) (bad : 47 < b.toNat) :
    readTypeAnswer [b] s = s.turnDown .badValue := by
  have unknown : typeOf (at8 [b] 0) = none := typeOf_eq_none (by simpa [at8] using bad)
  simp [readTypeAnswer, State.onType, unknown]

/-- READ_TYPE of a type number of the library (R38). -/
theorem readTypeAnswer_typeNo (t : Fin 48) (s : State) :
    readTypeAnswer (u8 t.val) s =
      if (s.typeSlot t).state = .absent then s.turnDown .typeAbsent else s.readType t := by
  have number : typeOf (at8 (u8 t.val) 0) = some t := by
    rw [show at8 (u8 t.val) 0 = t.val from u8_read (by omega), typeOf_val]
  rw [readTypeAnswer, State.onType, number,
    if_neg (show ¬ (u8 t.val).length ≠ 1 from not_not.2 rfl)]

theorem exec_readType_turnDown {payload : List Byte} {st : Status} {tag : Byte}
    (takes : s.takes .cell = true) (short : payload.length ≤ 250)
    (refused : readTypeAnswer payload (s.withReply .cell 42 tag st []) =
      (s.withReply .cell 42 tag st []).turnDown st) :
    exec (.readType tag payload) s = .next (s.withReply .cell 42 tag st []) :=
  next_turnDown (readTypeAnswer_stamps payload) takes short refused

/-- READ_TYPE of a type that is not ABSENT, by what it answers whatever the cell link holds. -/
theorem exec_readType_of {i : Fin 48} {tag : Byte} {st : Status} {bytes : List Byte}
    (takes : s.takes .cell = true) (present : (s.typeSlot i).state ≠ .absent)
    (link : t.cellLink = s.cellLink)
    (answer : ∀ k, (s.withCell k).readType i = ⟨t.withCell k, { status := st, fields := bytes }⟩) :
    exec (.readType tag (u8 i.val)) s = .next (t.withReply .cell 42 tag st bytes) :=
  congrArg _ (State.request_cell (readTypeAnswer_stamps _) takes (by simp [u8]) link fun k => by
    rw [readTypeAnswer_typeNo, State.withCell_typeSlot, if_neg present, answer])

/-- A type found BROKEN by a READ_TYPE (R34, R35): the claims waiting on it dropped, and a pass where
there are some. -/
theorem State.foundBroken_withCell (s : State) (i : Fin 48) (slot : TypeSlot) (k : LinkState) :
    (s.withCell k).foundBroken i slot =
      ⟨(if s.waitingOnType i = [] then s.setType i { slot with state := .broken }
        else ((s.setType i { slot with state := .broken }).dropAll none .typeBroken
          (s.waitingOnType i)).pass none).withCell k, refuse .typeBroken⟩ := by
  have waiting : (s.setType i { slot with state := .broken }).waitingOnType i = s.waitingOnType i := rfl
  unfold State.foundBroken Passing.run
  simp only [State.withCell_setType, State.withCell_dropBroken, State.withCell_waitingOnType, waiting]
  by_cases none_waits : s.waitingOnType i = []
  · simp [none_waits, State.dropBroken, waiting]
  · have some_wait : (!(s.waitingOnType i).isEmpty) = true := by simpa using none_waits
    rw [if_pos some_wait, if_neg none_waits, State.withCell_pass]
    rfl

/-- The slot after a read of its active record. -/
theorem TypeSlot.reread_of {slot : TypeSlot} {a : StoredRecord} (active : slot.active = some a) :
    slot.reread = { slot with
      active := some a.corrected, faults := min (slot.faults + a.correctable) 255 } := by
  rw [TypeSlot.reread, active]
  rfl

theorem TypeSlot.read_of_readable {slot : TypeSlot} {a : StoredRecord} (active : slot.active = some a)
    (readable : a.readable = true) : slot.read = some a.fields := by
  rw [TypeSlot.read, active]
  exact if_pos readable

theorem TypeSlot.read_of_not_readable {slot : TypeSlot} {a : StoredRecord}
    (active : slot.active = some a) (damaged : a.readable = false) : slot.read = none := by
  rw [TypeSlot.read, active]
  exact if_neg (by simp [damaged])

/-- READ_TYPE of a type whose active record can be read (R38). -/
theorem State.readType_of_readable {i : Fin 48} {a : StoredRecord}
    (sound : (s.typeSlot i).state ≠ .broken) (active : (s.typeSlot i).active = some a)
    (readable : a.readable = true) :
    s.readType i = (s.setType i (s.typeSlot i).reread).reportType i a.fields := by
  unfold State.readType
  rw [if_neg sound, TypeSlot.read_of_readable active readable]

theorem State.readType_of_not_readable {i : Fin 48} {a : StoredRecord}
    (sound : (s.typeSlot i).state ≠ .broken) (active : (s.typeSlot i).active = some a)
    (damaged : a.readable = false) :
    s.readType i = if (s.typeSlot i).state = .draining then s.readDraining i
      else s.foundBroken i (s.typeSlot i).reread := by
  unfold State.readType
  rw [if_neg sound, TypeSlot.read_of_not_readable active damaged]

theorem TypeSlot.repair_of_readable {slot : TypeSlot} {p : StoredRecord}
    (waiting : slot.waiting = some p) (readable : p.readable = true) :
    slot.repair = { slot with
      active := some { p with flips := [] }, waiting := some { p with flips := [] }
      faults := min (slot.faults + p.flips.length) 255 } := by
  rw [TypeSlot.repair, waiting]
  refine (if_pos readable).trans ?_
  rw [p.corrected_of_readable readable, p.correctable_of_readable readable, addFaults]

theorem TypeSlot.repair_of_not_readable {slot : TypeSlot} {p : StoredRecord}
    (waiting : slot.waiting = some p) (damaged : p.readable = false) :
    slot.repair = { slot with
      state := .broken, waiting := none, faults := min (slot.faults + p.correctable) 255 } := by
  rw [TypeSlot.repair, waiting]
  exact if_neg (by simp [damaged])

/-- A read that repairs a DRAINING type reports the pending record's fields (R35). -/
theorem State.readDraining_of_readable {i : Fin 48} {p : StoredRecord}
    (draining : (s.typeSlot i).state = .draining) (waiting : (s.typeSlot i).waiting = some p)
    (readable : p.readable = true) :
    s.readDraining i = (s.setType i (s.typeSlot i).reread.repair).reportType i p.fields := by
  have repaired := TypeSlot.repair_of_readable (slot := (s.typeSlot i).reread)
    (by rw [TypeSlot.reread_waiting, waiting]) readable
  have state : (s.typeSlot i).reread.repair.state = .draining := by
    rw [repaired]; exact (TypeSlot.reread_state _).trans draining
  have active : (s.typeSlot i).reread.repair.active = some { p with flips := [] } := by rw [repaired]
  unfold State.readDraining
  simp only [state, active]

/-- A read that cannot repair a DRAINING type finds it BROKEN (R35). -/
theorem State.readDraining_of_not_readable {i : Fin 48} {p : StoredRecord}
    (waiting : (s.typeSlot i).waiting = some p) (damaged : p.readable = false) :
    s.readDraining i = s.foundBroken i (s.typeSlot i).reread.repair := by
  have broken : (s.typeSlot i).reread.repair.state = .broken := by
    rw [TypeSlot.repair_of_not_readable (by rw [TypeSlot.reread_waiting, waiting]) damaged]
  unfold State.readDraining
  simp only [broken]

theorem TypeState.not_absent_not_broken {st : TypeState} (kept : st = .ready ∨ st = .draining) :
    st ≠ .absent ∧ st ≠ .broken := by
  rcases kept with rfl | rfl <;> decide

/-- READ_TYPE answers with the report of a slot, whatever the cell link holds. -/
theorem exec_readType_of_report {i : Fin 48} {tag : Byte} {slot : TypeSlot} {r : TypeRecord}
    (takes : s.takes .cell = true) (present : (s.typeSlot i).state ≠ .absent)
    (read : ∀ k, (s.withCell k).readType i = ((s.withCell k).setType i slot).reportType i r) :
    exec (.readType tag (u8 i.val)) s = .next ((s.setType i slot).withReply .cell 42 tag .ok
      (slotBytes i slot ++ flagByte slot.waiting.isSome ++ typeBytes i r)) :=
  exec_readType_of takes present rfl fun k => by
    rw [read, State.reportType, State.setType_typeSlot_self, State.withCell_setType]
    rfl

/-- READ_TYPE that finds a type BROKEN (R34, R35). -/
theorem exec_readType_of_broken {i : Fin 48} {tag : Byte} {slot : TypeSlot}
    (takes : s.takes .cell = true) (present : (s.typeSlot i).state ≠ .absent)
    (read : ∀ k, (s.withCell k).readType i = (s.withCell k).foundBroken i slot) :
    exec (.readType tag (u8 i.val)) s =
      .next ((if s.waitingOnType i = [] then s.setType i { slot with state := .broken }
        else ((s.setType i { slot with state := .broken }).dropAll none .typeBroken
          (s.waitingOnType i)).pass none).withReply .cell 42 tag .typeBroken []) := by
  refine exec_readType_of takes present ?_ fun k => (read k).trans (State.foundBroken_withCell ..)
  split
  · rfl
  · rw [State.pass_cellLink, State.dropAll_cellLink]
    rfl

/-- Settles O18: the refusals, and the read by whether the active and the pending record are sound. -/
theorem readTypeReportsAndRepairs : Obligations.ReadTypeReportsAndRepairs := by
  intro tag i s takes slot waiting reported
  have short : (u8 i.val).length ≤ 250 := by simp [u8]
  refine ⟨fun payload len room => ?_, fun b bad => ?_, fun absent => ?_, fun broken => ?_,
    fun a kept active order sound => ?_, fun a ready active damaged => ?_,
    fun a p draining active pending damaged lost => ?_,
    fun a p draining active pending damaged order sound => ?_⟩
  · exact exec_readType_turnDown takes room (readTypeAnswer_badLength _ len)
  · exact exec_readType_turnDown takes (by simp) (readTypeAnswer_badValue _ bad)
  · refine exec_readType_turnDown takes short ?_
    rw [readTypeAnswer_typeNo, State.withReply_typeSlot, if_pos absent]
  · refine congrArg _ (State.request_answer (readTypeAnswer_stamps _) takes short ?_)
    rw [readTypeAnswer_typeNo, State.withReply_typeSlot, if_neg (by rw [broken]; decide),
      State.readType, State.withReply_typeSlot, if_pos broken, slotBytes, broken]
    rfl
  · obtain ⟨present, unbroken⟩ := TypeState.not_absent_not_broken kept
    have readable := a.readable_iff_sound.2 sound
    have reread := TypeSlot.reread_of active
    rw [a.corrected_of_readable readable, a.correctable_of_readable readable] at reread
    rw [exec_readType_of_report (slot := slot.reread) takes present fun k =>
      State.readType_of_readable (s := s.withCell k) unbroken active readable, reread]
    rfl
  · obtain ⟨present, unbroken⟩ := TypeState.not_absent_not_broken (.inl ready)
    have steady : slot.state ≠ .draining := by rw [ready]; decide
    rw [exec_readType_of_broken (slot := slot.reread) takes present fun k =>
      (State.readType_of_not_readable (s := s.withCell k) unbroken active
        (a.not_readable_of_not_sound damaged)).trans (if_neg steady), TypeSlot.reread_of active]
    rfl
  · obtain ⟨present, unbroken⟩ := TypeState.not_absent_not_broken (.inr draining)
    rw [exec_readType_of_broken (slot := slot.reread.repair) takes present fun k =>
      (State.readType_of_not_readable (s := s.withCell k) unbroken active
        (a.not_readable_of_not_sound damaged)).trans ((if_pos draining).trans
          (State.readDraining_of_not_readable (s := s.withCell k) pending
            (p.not_readable_of_not_sound lost))),
      TypeSlot.repair_of_not_readable ((TypeSlot.reread_waiting _).trans pending)
        (p.not_readable_of_not_sound lost), TypeSlot.reread_of active]
    rfl
  · obtain ⟨present, unbroken⟩ := TypeState.not_absent_not_broken (.inr draining)
    have readable := p.readable_iff_sound.2 sound
    rw [exec_readType_of_report (slot := slot.reread.repair) takes present fun k =>
      (State.readType_of_not_readable (s := s.withCell k) unbroken active
        (a.not_readable_of_not_sound damaged)).trans ((if_pos draining).trans
          (State.readDraining_of_readable (s := s.withCell k) draining pending readable)),
      TypeSlot.repair_of_readable ((TypeSlot.reread_waiting _).trans pending) readable,
      TypeSlot.reread_of active]
    change Host.Outcome.next (State.withReply _ _ _ _ _ (u8 i.val ++ u8 (s.typeSlot i).state.code
      ++ _ ++ _ ++ _ ++ _)) = _
    rw [draining]
    rfl

/-! ### The release of a user (R28, R29, R36) -/

/-- The installation of the pending record of a slot whose last user is gone (R29, R36). -/
theorem TypeSlot.drained_of {slot : TypeSlot} {p : StoredRecord} (pending : slot.waiting = some p) :
    (p.sound → slot.drained =
      { state := .ready, users := 0, faults := min p.flips.length 255
        active := some { p with flips := [] }, waiting := none }) ∧
    (¬ p.sound → slot.drained =
      { state := .broken, users := 0, faults := min (slot.faults + p.correctable) 255
        active := slot.active, waiting := none }) := by
  rw [TypeSlot.drained, TypeSlot.install, pending]
  refine ⟨fun sound => ?_, fun lost => if_neg ?_⟩
  · have readable := p.readable_iff_sound.2 sound
    refine (if_pos readable).trans ?_
    rw [TypeSlot.installed, p.corrected_of_readable readable, p.correctable_of_readable readable,
      addFaults, Nat.zero_add]
  · rw [p.not_readable_of_not_sound lost]
    exact Bool.false_ne_true

/-- Settles O19: the cases of a release, the installing read by whether the pending record is sound. -/
theorem lastReleaseInstallsThePending : Obligations.LastReleaseInstallsThePending := by
  intro i s slot
  refine ⟨fun others => ?_, fun p draining one pending order sound => ?_,
    fun p draining one pending lost => ?_⟩
  · obtain ⟨-, released⟩ | ⟨draining, one, -⟩ := s.releaseUser_cases i
    · exact released
    · exact absurd draining (others.resolve_right fun more => more one)
  · have drained := (TypeSlot.drained_of pending).1 sound
    obtain ⟨more, -⟩ | ⟨-, -, ⟨-, released⟩ | ⟨state, -⟩⟩ := s.releaseUser_cases i
    · exact absurd ⟨draining, one⟩ more
    · rw [released, show (s.typeSlot i).drained = _ from drained]
    · rw [show (s.typeSlot i).drained = _ from drained] at state
      cases state
  · intro broken
    have drained := (TypeSlot.drained_of pending).2 lost
    obtain ⟨more, -⟩ | ⟨-, -, ⟨state, -⟩ | ⟨-, released⟩⟩ := s.releaseUser_cases i
    · exact absurd ⟨draining, one⟩ more
    · rw [show (s.typeSlot i).drained = _ from drained] at state
      exact absurd rfl state
    · rw [released, show (s.typeSlot i).drained = _ from drained]
      refine ⟨rfl, ?_⟩
      simp [State.waitingOnType]

end Sys2Proof.Machine
end

section
/-! Strokes (sections 5 and 7): the refusals of START, the work on a stroke sample, its causes, the
abort, and the samples of a HALTED head (obligations O33, O34, O35, O36, O37 and O40). -/

namespace Sys2Proof.Machine

variable {s : State} {h : Head} {c : Claim} {w : WorkingCopy} {k : Stroke}

/-! ### START (R90) -/

theorem startAnswer_badLength {payload : List Byte} (h : Head) (s : State) (some_bytes : payload ≠ []) :
    startAnswer h payload s = s.refuseStart h .badLength := by
  refine if_pos ?_
  simpa using some_bytes

theorem startAnswer_of_idle (idle : (s.monitor h).state = .idle) :
    startAnswer h [] s = s.refuseStart h .claimLost := by
  simp [startAnswer, idle]

theorem startAnswer_of_not_ready (not_idle : (s.monitor h).state ≠ .idle)
    (not_armed : (s.monitor h).state ≠ .armed) :
    startAnswer h [] s = s.refuseStart h .headState := by
  unfold startAnswer
  rw [if_neg (by simp)]
  split
  · exact absurd ‹_› not_idle
  · exact absurd ‹_› not_armed
  · rfl

theorem State.startArmed_of (claim : (s.monitor h).claim = some c) (copy : (s.monitor h).copy = some w) :
    s.startArmed h =
      if (s.front h).homed = false ∨ (s.front h).encoderFault then s.refuseStart h .notHomed
      else if (s.front h).tare.state ≠ .stable then s.refuseStart h .tareUnstable
      else if forcePresent (s.front h) w.fields then
        s.answer .forcePresent (u8 (s.monitor h).state.code ++ s32 (s.front h).latest.net)
      else s.acceptStart h c w := by
  simp [State.startArmed, claim, copy]

/-- A START that is refused changes nothing but the reply. -/
theorem exec_start_refused {payload : List Byte} {st : Status} {bytes : List Byte} {tag : Byte}
    (takes : s.takes (.head h) = true) (short : payload.length ≤ 250)
    (refused : startAnswer h payload (s.withReply (.head h) 19 tag st bytes) =
      (s.withReply (.head h) 19 tag st bytes).answer st bytes) :
    exec (.start h tag payload) s = .next (s.withReply (.head h) 19 tag st bytes) :=
  congrArg _ (State.request_answer (startAnswer_stamps h payload) takes short refused)

/-- Settles O33: the checks of START in their order. -/
theorem startRefusals : Obligations.StartRefusals := by
  intro h tag s takes code
  refine ⟨fun payload some_bytes short => ?_, fun idle => ?_, fun not_idle not_armed => ?_,
    fun c w armed claim copy => ?_⟩
  · refine exec_start_refused takes short ?_
    rw [startAnswer_badLength h _ some_bytes, State.refuseStart, State.withReply_monitor]
  · refine exec_start_refused takes (Nat.zero_le _) ?_
    rw [startAnswer_of_idle (by simpa using idle), State.refuseStart, State.withReply_monitor, idle]
    rfl
  · refine exec_start_refused takes (Nat.zero_le _) ?_
    rw [startAnswer_of_not_ready (by simpa using not_idle) (by simpa using not_armed),
      State.refuseStart, State.withReply_monitor]
  · intro f
    have checked (st : Status) (bytes : List Byte) :
        startAnswer h [] (s.withReply (.head h) 19 tag st bytes) = _ :=
      (startAnswer_nil_of_armed (by simpa using armed)).trans
        (State.startArmed_of (by simpa using claim) (by simpa using copy))
    simp only [State.refuseStart, State.withReply_monitor, State.withReply_front, armed] at checked
    refine ⟨fun unhomed => ?_, fun homed counting unstable => ?_, fun homed counting stable heavy => ?_⟩
    · refine exec_start_refused takes (Nat.zero_le _) ?_
      rw [checked, if_pos unhomed]
      rfl
    · refine exec_start_refused takes (Nat.zero_le _) ?_
      rw [checked, if_neg (by simp [f] at homed counting; simp [homed, counting]), if_pos unstable]
      rfl
    · refine exec_start_refused takes (Nat.zero_le _) ?_
      rw [checked, if_neg (by simp [f] at homed counting; simp [homed, counting]),
        if_neg (not_not.2 stable), if_pos (by simpa [forcePresent] using heavy)]
      rfl

/-! ### The causes of a stroke sample (R132, R133) -/

theorem mem_causeIf (c d : Cause) (found : Bool) : c ∈ causeIf d found ↔ c = d ∧ found = true := by
  unfold causeIf
  split <;> simp_all

theorem SampleRecord.anySaturated_iff (r : SampleRecord) :
    r.anySaturated = true ↔ ∃ e ∈ r.corners.toList, e.saturated = true := List.any_eq_true

theorem SampleRecord.anyNoisyRun_iff (r : SampleRecord) :
    r.anyNoisyRun = true ↔ ∃ e ∈ r.corners.toList, e.noisyRun = true := List.any_eq_true

theorem tiltExceeds_iff (r : TypeRecord) (rec : SampleRecord) :
    tiltExceeds r rec = true ↔ ∃ i, rec.tilt = some i ∧ r.tiltLimit < i := by
  unfold tiltExceeds
  split <;> simp_all

theorem overtravelExceeds_iff (r : TypeRecord) (k : Stroke) :
    overtravelExceeds r k = true ↔
      ∃ o, k.eval.overtravel = some o ∧ (r.overtravelMax : Int) < o := by
  unfold overtravelExceeds
  split <;> simp_all

theorem depthReached_iff (r : TypeRecord) (restrike : Bool) (k : Stroke) :
    depthReached r restrike k = true ↔
      ∃ d, k.eval.maxDepth = some d ∧ (depthLimit r restrike : Int) ≤ d := by
  unfold depthReached
  split <;> simp_all

/-- The causes of codes 1 to 4 that a sample carries (R132). -/
theorem mem_sampleCauses (r : TypeRecord) (rec : SampleRecord) (d : Cause) :
    d ∈ sampleCauses r rec ↔
      d = .overforce ∧ (r.forceMax : Int) < rec.net ∨
      d = .overrange ∧ (∃ e ∈ rec.corners.toList, e.saturated = true) ∨
      d = .encoder ∧ rec.periodFault = true ∨
      d = .tilt ∧ ∃ i, rec.tilt = some i ∧ r.tiltLimit < i := by
  simp only [sampleCauses, List.mem_append, mem_causeIf, decide_eq_true_eq,
    SampleRecord.anySaturated_iff, tiltExceeds_iff, or_assoc]

/-- The causes of a stroke sample by the table of R132. -/
theorem mem_strokeCauses (st : HeadState) (r : TypeRecord) (restrike : Bool) (k : Stroke)
    (rec : SampleRecord) (d : Cause) :
    d ∈ strokeCauses st r restrike k rec ↔ d ∈ sampleCauses r rec ∨
      d = .overtravel ∧ (st = .seating ∧ ∃ o, k.eval.overtravel = some o ∧ (r.overtravelMax : Int) < o) ∨
      d = .depthLimit ∧ (st = .engage ∧
        ∃ x, k.eval.maxDepth = some x ∧ (depthLimit r restrike : Int) ≤ x) ∨
      d = .noContact ∧ (st = .approach ∧ (r.approachLimit : Int) < rec.position - k.startPosition) ∨
      d = .stalled ∧ (st = .engage ∧ k.stallLimit ≤ k.stallRun) ∨
      d = .sensorNoise ∧ (∃ e ∈ rec.corners.toList, e.noisyRun = true) ∨
      d = .strokeTime ∧ k.strokeLimit ≤ k.count := by
  simp only [strokeCauses, List.mem_append, mem_causeIf, decide_eq_true_eq, Bool.and_eq_true, beq_iff_eq,
    SampleRecord.anyNoisyRun_iff, overtravelExceeds_iff, depthReached_iff, or_assoc]

/-- Settles O36: the table row by row, the causes found in its order. -/
theorem strokeCausesAreTheTable : Obligations.StrokeCausesAreTheTable := by
  intro st r restrike k sample inStroke found depth
  have limit : depth = depthLimit r restrike := rfl
  refine ⟨strokeCauses_pairwise .., ?_, ?_, ?_, ?_, ?_, ?_, ?_, ?_, ?_, ?_, strokeCauses_code_le⟩ <;>
    simp only [found, limit, mem_strokeCauses, mem_sampleCauses, reduceCtorEq, false_and, true_and,
      false_or, or_false]

/-! ### The work on a stroke sample (R93 to R99) -/

/-- The record of a sample is that of the rules' words (R13). -/
theorem sampleRecord_eq (s : State) (h : Head) (conv : PerCorner Conversions) :
    sampleRecord h (s.front h) (s.monitor h) conv = s.sampleOf h conv := rfl

/-- A front end after a sample completed in a stroke state: the tracker is frozen (R6, R14). -/
theorem FrontEnd.complete_of_inStroke {st : HeadState} (inStroke : st.inStroke = true) (f : FrontEnd)
    (p : Period) (conv : PerCorner Conversions) (r : SampleRecord) :
    f.complete p st conv r = { f with
      corners := f.corners.zipWith (cornerAfter f.noiseLimit) conv
      periodFault := false, heldCount := min (f.heldCount + r.noisyCount) 255, latest := r } := by
  simp only [FrontEnd.complete, FrontEnd.track, FrontEnd.countHeld, inStroke, if_true]

/-- A front end after a sample completed outside a stroke (R14, R16). -/
theorem FrontEnd.complete_of_not_inStroke {st : HeadState} (outside : st.inStroke = false) (f : FrontEnd)
    (p : Period) (conv : PerCorner Conversions) (r : SampleRecord) :
    f.complete p st conv r = { f with
      corners := f.corners.zipWith (cornerAfter f.noiseLimit) conv
      tare := if r.corners.toList.any fun e => e.noisyRun || e.saturated then
          { f.tare with run := 0, state := .settling }
        else f.tare.step f.hysteresis (stabilitySamples p f) r.gross
      periodFault := false, latest := r } := by
  simp only [FrontEnd.complete, FrontEnd.track, FrontEnd.countHeld, outside, SampleRecord.anyMarked,
    Bool.false_eq_true, if_false]
  rfl

/-- A sample completed in a stroke state, as the sample left by the front end is worked on (R93). -/
theorem State.completeSample_of_inStroke (conv : PerCorner Conversions)
    (inStroke : (s.monitor h).state.inStroke = true) (claim : (s.monitor h).claim = some c)
    (copy : (s.monitor h).copy = some w) (stroke : (s.monitor h).stroke = some k) :
    s.completeSample h conv =
      (((s.setFront h ((s.front h).complete s.period (s.monitor h).state conv (s.sampleOf h conv))
        ).progressed h c ((k.countSample (s.sampleOf h conv)).progress (s.monitor h).state w.fields
          c.restrike (s.sampleOf h conv))).concludeSample h w.fields c.restrike
            ((k.countSample (s.sampleOf h conv)).progress (s.monitor h).state w.fields c.restrike
              (s.sampleOf h conv)) (s.sampleOf h conv)).run := by
  rw [State.completeSample, sampleRecord_eq, State.takeSample,
    if_pos (by rw [State.setFront_monitor]; exact inStroke),
    State.strokeSample_of (c := c) (w := w) (k := k) (by rw [State.setFront_monitor]; exact claim)
      (by rw [State.setFront_monitor]; exact copy) (by rw [State.setFront_monitor]; exact stroke),
    State.setFront_monitor]

/-- The figures of R152 after one more stroke sample. -/
theorem Stroke.countSample_eq (k : Stroke) (rec : SampleRecord) :
    k.countSample rec = { k with
      count := k.count + 1
      samples := min (k.samples + 1) 65535
      samplesSaturated := k.samplesSaturated || decide (65535 ≤ k.samples + 1)
      peakForce := max k.peakForce rec.net
      peakTilt := match k.peakTilt, rec.tilt with
        | none, tilt => tilt
        | some peak, none => some peak
        | some peak, some tilt => some (max peak tilt) } := by
  unfold Stroke.countSample peakOf
  cases k.peakTilt <;> cases rec.tilt <;> rfl

/-- Settles O34: the front end keeps the sample, step 2 makes its progress, and the causes against the
state then left decide. -/
theorem strokeSampleIsWorkedInOrder : Obligations.StrokeSampleIsWorkedInOrder := by
  intro h conv c w k s released inStroke claim copy stroke sample counted p worked told₁ told causes
    complete
  have count : k.countSample sample = counted := (k.countSample_eq sample).trans rfl
  have made : exec (.sampleComplete h conv) s =
      .next (told.concludeSample h w.fields c.restrike p sample).run := by
    rw [exec_sampleComplete h conv released,
      State.completeSample_of_inStroke conv inStroke claim copy stroke,
      FrontEnd.complete_of_inStroke inStroke]
    simp only [State.progressed, State.eventContact, State.eventSeated, State.event]
    rw [show k.countSample (s.sampleOf h conv) = counted from count, State.setFront_monitor]
  rw [made, State.concludeSample]
  refine ⟨fun primary further found => ?_, fun none_found dwelt => ?_, fun none_found going => ?_⟩
  · rw [show strokeCauses _ _ _ _ _ = _ from found]
  · rw [show strokeCauses _ _ _ _ _ = _ from none_found]
    simp only
    rw [if_pos dwelt]
  · rw [show strokeCauses _ _ _ _ _ = _ from none_found]
    simp only
    rw [if_neg going]
    rfl

/-! ### Contact, stall and dwell (R95 to R99, R127) -/

/-- What a sample in ENGAGE makes of the stroke variables (R97, R98). -/
theorem Stroke.engage_eq (k : Stroke) (r : TypeRecord) (restrike confirming : Bool) (pc : Int)
    (rec : SampleRecord) :
    k.engage r restrike confirming pc rec =
      let out := k.eval.engage r restrike (rec.position - pc) rec.net
      { state := if out.seat.isSome then .seating else .engage
        contact := confirming
        seated := out.seat.isSome
        stroke := { k with
          eval := out.eval
          stallRun := if confirming || out.rose then 0 else k.stallRun + 1
          seatDepth := if out.seat.isSome then out.seat else k.seatDepth
          dwell := if out.seat.isSome then 0 else k.dwell } } := by
  unfold Stroke.engage
  simp only
  cases (k.eval.engage r restrike (rec.position - pc) rec.net).seat <;> rfl

theorem Stroke.approach_below {r : TypeRecord} {rec : SampleRecord} (k : Stroke) (restrike : Bool)
    (light : rec.net < r.contactThreshold) :
    k.approach r restrike rec =
      { state := .approach, stroke := { k with contactRun := 0, candidate := none }
        contact := false, seated := false } := if_neg (by omega)

/-- The first position of a contact run (R95). -/
def Stroke.candidateOf (k : Stroke) (rec : SampleRecord) : Int :=
  if k.contactRun = 0 then rec.position else k.candidate.getD rec.position

theorem Stroke.approach_above {r : TypeRecord} {rec : SampleRecord} (k : Stroke) (restrike : Bool)
    (heavy : (r.contactThreshold : Int) ≤ rec.net) :
    k.approach r restrike rec =
      if r.confirmCount ≤ k.contactRun + 1 then
        ({ k with
          contactRun := k.contactRun + 1, candidate := some (k.candidateOf rec)
          contactPosition := some (k.candidateOf rec) } : Stroke).engage r restrike true
            (k.candidateOf rec) rec
      else
        { state := .approach, contact := false, seated := false
          stroke := { k with
            contactRun := k.contactRun + 1, candidate := some (k.candidateOf rec) } } := if_pos heavy

theorem rose_iff (before : Option Int) (d : Int) :
    rose before d = true ↔ ∀ m, before = some m → m < d := by
  cases before <;> simp [rose]

theorem Evaluation.engage_rose (e : Evaluation) (r : TypeRecord) (restrike : Bool) (d f : Int) :
    (e.engage r restrike d f).rose = Machine.rose e.maxDepth d := by
  unfold Evaluation.engage
  simp only
  split <;> rfl

theorem Evaluation.engage_depth (e : Evaluation) (r : TypeRecord) (restrike : Bool) (d f : Int) :
    (e.engage r restrike d f).eval.depth = some d := by
  unfold Evaluation.engage
  simp only
  split <;> simp [Evaluation.deepen]

/-- A seat is found at the sample's depth, with overtravel 0 (R126, R127). -/
theorem Evaluation.engage_seated {e : Evaluation} {r : TypeRecord} {restrike : Bool} {d f : Int}
    (seated : (e.engage r restrike d f).seat.isSome = true) :
    (e.engage r restrike d f).seat = some d ∧ (e.engage r restrike d f).eval.overtravel = some 0 := by
  unfold Evaluation.engage at *
  simp only at *
  split
  · exact ⟨rfl, rfl⟩
  case isFalse none_found => rw [if_neg none_found] at seated; cases seated

/-- Settles O35: the three states of a stroke, ENGAGE by whether the evaluator finds the seat. -/
theorem contactStallAndDwell : Obligations.ContactStallAndDwell := by
  intro k r restrike sample inApproach candidate
  have approach : inApproach = k.approach r restrike sample := rfl
  have first : candidate = k.candidateOf sample := rfl
  refine ⟨fun light => ?_, fun heavy few => ?_, fun heavy enough => ?_, fun pc contact => ?_,
    fun pc seat contact depth => ?_⟩
  · rw [approach, Stroke.approach_below k restrike light]
    exact ⟨rfl, rfl, rfl, rfl⟩
  · rw [approach, Stroke.approach_above k restrike heavy, if_neg (Nat.not_le.2 few)]
    exact ⟨rfl, rfl, rfl, rfl⟩
  · rw [approach, Stroke.approach_above k restrike heavy, if_pos enough, Stroke.engage_eq]
    exact ⟨rfl, rfl, rfl, rfl, rfl, rfl⟩
  · intro inEngage out deeper
    have engaged : inEngage = k.engage r restrike false pc sample := by
      change k.engage r restrike false (k.contactPosition.getD 0) sample = _
      rw [contact, Option.getD_some]
    rw [Stroke.engage_eq] at engaged
    have rises : out.rose = true ↔ deeper :=
      (congrArg (· = true) (Evaluation.engage_rose ..)).to_iff.trans (rose_iff ..)
    have depth : out.eval.depth = some (sample.position - pc) := Evaluation.engage_depth ..
    rw [engaged]
    refine ⟨rfl, rfl, rfl, rfl, depth, fun seated => ?_, fun unseated => ?_, fun deep => ?_, fun flat => ?_⟩
    · obtain ⟨found, zero⟩ := Evaluation.engage_seated seated
      exact ⟨(if_pos seated).trans found, if_pos seated, zero⟩
    · have none_found : ¬ out.seat.isSome = true := by
        rw [show out.seat.isSome = false from unseated]; exact Bool.false_ne_true
      exact ⟨if_neg none_found, if_neg none_found⟩
    · exact if_pos (by rw [Bool.false_or]; exact rises.2 deep)
    · exact if_neg (by rw [Bool.false_or]; exact mt rises.1 flat)
  · intro inSeating
    have seated : inSeating = k.seat pc sample := by
      change k.seat (k.contactPosition.getD 0) sample = _
      rw [contact, Option.getD_some]
    rw [seated, Stroke.seat, depth, Option.getD_some, Evaluation.seating, Evaluation.deepen]
    refine ⟨rfl, rfl, rfl, ?_⟩
    unfold deeper
    cases k.eval.maxDepth <;> rfl

/-! ### The abort and STOP (R102, R136, R137, R141) -/

theorem HeadState.afterContact_eq (st : HeadState) :
    st.afterContact = decide (st = .engage ∨ st = .seating) := by cases st <;> rfl

/-- The head's part of an abort (R136). -/
theorem Monitor.halt_eq (m : Monitor) (h : Head) (c : Claim) (w : WorkingCopy) (k : Stroke) (held : Nat)
    (cause : Cause) (further : List Cause) :
    m.halt h c w k held cause further = { m with
      state := .halted, permit := false
      stroke := some (k.aborted h c w held m.state.afterContact cause further) } := by
  unfold Monitor.halt Stroke.aborted abortItems pressRecord
  simp only [Evaluation.complete_eq]
  cases c.restrike <;> rfl

/-- An abort in its order: head and site, then the user released, then the tare tracker restarted and
ABORTED queued (R136). -/
theorem State.abortStroke_of_site {e : SiteEntry} (cause : Cause) (further : List Cause)
    (claim : (s.monitor h).claim = some c) (copy : (s.monitor h).copy = some w)
    (stroke : (s.monitor h).stroke = some k) (site : s.site c.site = some e) :
    s.abortStroke h cause further =
      let released := (((s.setMonitor h { s.monitor h with
        state := .halted, permit := false
        stroke := some (k.aborted h c w (s.front h).heldCount (s.monitor h).state.afterContact cause
          further) }).setSite c.site (some (e.apply (.abort cause
            (s.monitor h).state.afterContact)))).releaseUser w.typeNo)
      { state := (released.state.setFront h (s.front h).restartTare).eventAborted h c.site cause
        due := released.due } := by
  rw [State.abortStroke_of claim copy stroke, Monitor.halt_eq,
    State.changeSite_of_site (by rw [State.setMonitor_site]; exact site)]

theorem stopAnswer_badLength {payload : List Byte} (h : Head) (s : State) (some_bytes : payload ≠ []) :
    stopAnswer h payload s = s.turnDown .badLength := by
  refine if_pos ?_
  simpa using some_bytes

theorem stopAnswer_nil (h : Head) (s : State) :
    stopAnswer h [] s = if (s.monitor h).state.inStroke then
      (s.abortStroke h .headStop []).run.answer .ok (u8 HeadState.halted.code)
    else s.turnDown .headState := rfl

/-- Settles O37: the parts of an abort in their order, and STOP by the head state. -/
theorem abortHaltsTheHead : Obligations.AbortHaltsTheHead := by
  refine ⟨fun h cause further c w k e s claim copy stroke site => ?_, fun h tag s takes =>
    ⟨fun payload some_bytes short => ?_, fun outside => ?_, fun inStroke => ?_⟩⟩
  · intro m contact released
    rw [State.abortStroke_of_site cause further claim copy stroke site, HeadState.afterContact_eq]
    rfl
  · exact congrArg _ (State.request_turnDown (stopAnswer_stamps h payload) takes short
      (stopAnswer_badLength h _ some_bytes))
  · refine congrArg _ (State.request_turnDown (stopAnswer_stamps h []) takes (Nat.zero_le _) ?_)
    rw [stopAnswer_nil, State.withReply_monitor, outside]
    rfl
  · refine congrArg _ (State.request_of (st := .ok) (bytes := [7]) (stopAnswer_stamps h []) takes
      (Nat.zero_le _) ?_)
    rw [stopAnswer_nil, State.withReply_monitor, if_pos inStroke]
    rfl

/-! ### The samples of a HALTED head (R138) -/

theorem State.haltedSample_of {a : AbortItems} (rec : SampleRecord)
    (halted : (s.monitor h).state = .halted) (copy : (s.monitor h).copy = some w)
    (stroke : (s.monitor h).stroke = some k) (abort : k.abort = some a) :
    s.haltedSample h rec = s.setMonitor h { s.monitor h with
      stroke := some { k with abort := some { a with
        further := ((sampleCauses w.fields rec).foldl AbortItems.join a).further } } } := by
  unfold State.haltedSample Monitor.joinCauses
  simp only [copy, halted, stroke, abort, Option.map_some]
  rw [← joinAll_eq]

/-- Settles O40: a HALTED sample is kept and stepped on like any outside a stroke, and its causes of
codes 1 to 4 join the further-cause set. -/
theorem haltedSamplesAreWatched : Obligations.HaltedSamplesAreWatched := by
  intro h conv w k a s released halted copy stroke abort sample f
  have outside : (s.monitor h).state.inStroke = false := by rw [halted]; rfl
  refine ⟨((sampleCauses w.fields sample).foldl AbortItems.join a).further, ?_, fun d => ?_⟩
  · rw [exec_sampleComplete h conv released, State.completeSample, sampleRecord_eq, State.takeSample,
      if_neg (by rw [State.setFront_monitor, outside]; exact Bool.false_ne_true),
      if_pos (by rw [State.setFront_monitor]; exact halted),
      State.haltedSample_of (w := w) (k := k) (a := a) _ (by rw [State.setFront_monitor]; exact halted)
        (by rw [State.setFront_monitor]; exact copy) (by rw [State.setFront_monitor]; exact stroke) abort,
      State.setFront_monitor, FrontEnd.complete_of_not_inStroke outside]
    rfl
  · rw [mem_joinAll_further, mem_sampleCauses, and_comm]
    rfl

end Sys2Proof.Machine
end

section
/-! The Profile Evaluator (section 6): the baselines, the step samples and the chains they close, and the
seat (obligations O45, O46 and O47). -/

namespace Sys2Proof.Machine

variable {gs : List Group} {maxD f : Int} {e : Evaluation}

/-! ### Baselines (R115) -/

theorem enteredNow_iff (before : Option Int) (maxD : Int) (g : Group) :
    enteredNow before maxD g = true ↔
      (g.entry : Int) ≤ maxD ∧ ∀ m, before = some m → m < g.entry := by
  unfold enteredNow
  cases before <;> simp

theorem captureBaselines_getElem? {before base : Option Int} {cs : List GroupCapture} {k : Nat}
    {g : Group} {c : GroupCapture} (group : gs[k]? = some g) (capture : cs[k]? = some c) :
    (captureBaselines before maxD base gs cs)[k]? =
      some (if enteredNow before maxD g then { c with baseline := base } else c) := by
  induction gs generalizing cs k with
  | nil => cases group
  | cons g' gs ih =>
    cases cs with
    | nil => cases capture
    | cons c' cs =>
      cases k with
      | zero => cases group; cases capture; rfl
      | succ k => exact ih group capture

/-- The first group keeps its capture, and each later one that is entered takes the pending baseline. -/
theorem baselinesAfter_getElem? {before base : Option Int} {cs : List GroupCapture} {k : Nat}
    {g : Group} {c : GroupCapture} (group : gs[k]? = some g) (capture : cs[k]? = some c) :
    (baselinesAfter before maxD base gs cs)[k]? =
      some (if 1 ≤ k ∧ enteredNow before maxD g then { c with baseline := base } else c) := by
  cases gs with
  | nil => cases group
  | cons g' gs =>
    cases cs with
    | nil => cases capture
    | cons c' cs =>
      cases k with
      | zero => cases capture; rfl
      | succ k =>
        refine (captureBaselines_getElem? (gs := gs) group capture).trans ?_
        simp

theorem length_captureBaselines (before base : Option Int) (gs : List Group) (cs : List GroupCapture) :
    (captureBaselines before maxD base gs cs).length = cs.length := by
  induction gs generalizing cs with
  | nil => rfl
  | cons g gs ih =>
    cases cs with
    | nil => rfl
    | cons c cs => exact congrArg Nat.succ (ih cs)

theorem length_baselinesAfter (before base : Option Int) (gs : List Group) (cs : List GroupCapture) :
    (baselinesAfter before maxD base gs cs).length = cs.length := by
  cases gs with
  | nil => rfl
  | cons g gs =>
    cases cs with
    | nil => rfl
    | cons c cs => exact congrArg Nat.succ (length_captureBaselines ..)

/-- The evaluation state between the baselines and the step samples of stage 3 (R110). -/
def Evaluation.withBaselines (e : Evaluation) (gs : List Group) (before : Option Int) (maxD f : Int) :
    Evaluation :=
  { e with
    captures := baselinesAfter before maxD e.pendingBaseline gs e.captures
    pendingBaseline := pendingAfter gs maxD f }

theorem Evaluation.takeGroups_eq (e : Evaluation) (gs : List Group) (before : Option Int)
    (maxD f : Int) : e.takeGroups gs before maxD f =
      Evaluation.takeSteps gs maxD f 0 gs (e.withBaselines gs before maxD f) := rfl

/-- The baseline of a group after a sample. -/
theorem Evaluation.takeGroups_baseline {before : Option Int} {k : Nat} {g : Group} {c : GroupCapture}
    (group : gs[k]? = some g) (capture : e.captures[k]? = some c) :
    ∃ c', (e.takeGroups gs before maxD f).captures[k]? = some c' ∧ c'.baseline =
      if 1 ≤ k ∧ enteredNow before maxD g then e.pendingBaseline else c.baseline := by
  have kept := Evaluation.takeSteps_baseline (gs := gs) (maxD := maxD) (f := f) (k := 0)
    (e := e.withBaselines gs before maxD f) gs k
  rw [← Evaluation.takeGroups_eq, Evaluation.withBaselines, baselinesAfter_getElem? group capture,
    Option.map_some, Option.map_eq_some_iff] at kept
  obtain ⟨c', here, same⟩ := kept
  exact ⟨c', here, same.trans (apply_ite GroupCapture.baseline ..)⟩

theorem mem_tail_iff (gs : List Group) (g : Group) : g ∈ gs.tail ↔ ∃ k, 1 ≤ k ∧ gs[k]? = some g := by
  rw [List.mem_iff_getElem?]
  constructor
  · rintro ⟨k, here⟩
    exact ⟨k + 1, by omega, by rwa [List.getElem?_tail] at here⟩
  · rintro ⟨k, later, here⟩
    exact ⟨k - 1, by rw [List.getElem?_tail]; rwa [Nat.sub_add_cancel later]⟩

theorem Evaluation.takeGroups_pendingBaseline_eq (e : Evaluation) (gs : List Group) (before : Option Int)
    (maxD f : Int) : (e.takeGroups gs before maxD f).pendingBaseline = pendingAfter gs maxD f := by
  rw [Evaluation.takeGroups_eq, Evaluation.takeSteps_pendingBaseline, Evaluation.withBaselines]

/-- Settles O45: the baselines are set before the step samples, which keep them. -/
theorem baselinesAreCaptured : Obligations.BaselinesAreCaptured := by
  intro e gs before maxD f lengths rises after
  refine ⟨fun c capture => ?_, fun k g c later group capture => ?_, fun ⟨k, g, later, group, below⟩ => ?_,
    fun all => ?_⟩
  · have here : 0 < gs.length := by
      rw [← lengths]
      exact (List.getElem?_eq_some_iff.1 capture).1
    obtain ⟨c', left, same⟩ := Evaluation.takeGroups_baseline (f := f) (before := before) (maxD := maxD)
      (List.getElem?_eq_getElem here) capture
    exact ⟨c', left, same⟩
  · obtain ⟨c', left, same⟩ := Evaluation.takeGroups_baseline (f := f) (before := before) (maxD := maxD)
      group capture
    refine ⟨c', left, ?_⟩
    simp only [same, later, true_and, enteredNow_iff]
  · rw [Evaluation.takeGroups_pendingBaseline_eq, pendingAfter, if_pos]
    exact List.any_eq_true.2 ⟨g, (mem_tail_iff gs g).2 ⟨k, later, group⟩, decide_eq_true below⟩
  · rw [Evaluation.takeGroups_pendingBaseline_eq, pendingAfter, if_neg]
    rw [List.any_eq_true]
    rintro ⟨g, mem, below⟩
    obtain ⟨k, later, group⟩ := (mem_tail_iff gs g).1 mem
    exact absurd (of_decide_eq_true below) (Int.not_lt.2 (all k g later group))

/-! ### Step samples (R116, R117) -/

/-- A sample that carries the maximum depth to `maxD` is the step sample of the group of place `k`
(R116). -/
def Steps (gs : List Group) (maxD : Int) (e : Evaluation) (k : Nat) : Prop :=
  ∃ g c, gs[k]? = some g ∧ e.captures[k]? = some c ∧ c.step = none ∧
    ((g.entry + g.settle : Nat) : Int) ≤ maxD

/-- The work of stage 3 on the group of place `k` (R116, R117). -/
def Evaluation.stepAt (gs : List Group) (maxD f : Int) (k : Nat) (next : Option Group)
    (e : Evaluation) : Evaluation :=
  match next with
  | some g =>
    if (g.entry : Int) ≤ maxD then { e.captureStep k f with chain := some (e.results.length + 1, k + 2) }
    else (e.captureStep k f).closeChain gs k f
  | none => (e.captureStep k f).closeChain gs k f

theorem Evaluation.takeSteps_cons (k : Nat) (g : Group) (rest : List Group) :
    Evaluation.takeSteps gs maxD f k (g :: rest) e =
      Evaluation.takeSteps gs maxD f (k + 1) rest
        (if e.stepTaken k = false ∧ ((g.entry + g.settle : Nat) : Int) ≤ maxD then
          e.stepAt gs maxD f k rest.head?
        else e) := by
  rw [Evaluation.takeSteps]
  cases rest <;> rfl

theorem Evaluation.stepAt_captures (k : Nat) (next : Option Group) :
    (e.stepAt gs maxD f k next).captures = (e.captureStep k f).captures := by
  unfold Evaluation.stepAt
  cases next with
  | none => rfl
  | some g => simp only; split <;> rfl

theorem Evaluation.stepAt_steps {k j : Nat} (next : Option Group) (other : j ≠ k) :
    Steps gs maxD (e.stepAt gs maxD f k next) j ↔ Steps gs maxD e j := by
  have same : (e.stepAt gs maxD f k next).captures[j]? = e.captures[j]? := by
    rw [Evaluation.stepAt_captures, Evaluation.captureStep]
    exact List.getElem?_modify_ne _ _ other.symm
  rw [Steps, Steps, same]

/-- The group of place `k` steps exactly where stage 3 captures its step. -/
theorem Evaluation.steps_iff {k : Nat} {g : Group} {c : GroupCapture} (group : gs[k]? = some g)
    (capture : e.captures[k]? = some c) :
    Steps gs maxD e k ↔ e.stepTaken k = false ∧ ((g.entry + g.settle : Nat) : Int) ≤ maxD := by
  unfold Steps Evaluation.stepTaken
  rw [group, capture]
  simp

/-- The groups from place `k` on begin with that of place `k`. -/
theorem drop_eq_cons {k : Nat} {g : Group} {rest : List Group} (here : gs.drop k = g :: rest) :
    gs[k]? = some g ∧ gs.drop (k + 1) = rest ∧ gs[k + 1]? = rest.head? := by
  have next : gs.drop (k + 1) = rest := by rw [← List.drop_drop, here]; rfl
  refine ⟨?_, next, ?_⟩
  · rw [← List.head?_drop, here]; rfl
  · rw [← List.head?_drop, next]

/-- Stage 3 from the group of place `k` on: what one group makes of it. -/
theorem Evaluation.takeSteps_of_cons {k : Nat} {g : Group} {rest : List Group}
    (lengths : e.captures.length = gs.length) (here : gs.drop k = g :: rest) :
    (Steps gs maxD e k ∧ Evaluation.takeSteps gs maxD f k (g :: rest) e =
      Evaluation.takeSteps gs maxD f (k + 1) rest (e.stepAt gs maxD f k gs[k + 1]?)) ∨
    (¬ Steps gs maxD e k ∧ Evaluation.takeSteps gs maxD f k (g :: rest) e =
      Evaluation.takeSteps gs maxD f (k + 1) rest e) := by
  obtain ⟨group, -, next⟩ := drop_eq_cons here
  have bound : k < e.captures.length := by
    rw [lengths]
    exact (List.getElem?_eq_some_iff.1 group).1
  have steps := Evaluation.steps_iff (maxD := maxD) group (List.getElem?_eq_getElem bound)
  rw [Evaluation.takeSteps_cons, steps, next]
  by_cases taken : e.stepTaken k = false ∧ ((g.entry + g.settle : Nat) : Int) ≤ maxD
  · exact .inl ⟨taken, by rw [if_pos taken]⟩
  · exact .inr ⟨taken, by rw [if_neg taken]⟩

theorem Evaluation.length_stepAt (k : Nat) (next : Option Group) :
    (e.stepAt gs maxD f k next).captures.length = e.captures.length := by
  rw [Evaluation.stepAt_captures, Evaluation.captureStep, List.length_modify]

/-- The captures after stage 3 from the group of place `k` on. -/
theorem Evaluation.takeSteps_captures {k : Nat} {rest : List Group}
    (lengths : e.captures.length = gs.length) (here : gs.drop k = rest) :
    (Evaluation.takeSteps gs maxD f k rest e).captures.length = gs.length ∧
    ∀ j c, e.captures[j]? = some c →
      ∃ c', (Evaluation.takeSteps gs maxD f k rest e).captures[j]? = some c' ∧
        (k ≤ j → Steps gs maxD e j → c'.step = some f) ∧
        (j < k ∨ ¬ Steps gs maxD e j → c'.step = c.step) := by
  induction rest generalizing k e with
  | nil =>
    refine ⟨lengths, fun j c capture => ⟨c, capture, fun later ⟨g, _, group, _⟩ => ?_, fun _ => rfl⟩⟩
    have past : gs.length ≤ k := List.drop_eq_nil_iff.1 here
    have := (List.getElem?_eq_some_iff.1 group).1
    omega
  | cons g rest ih =>
    obtain ⟨group, next, -⟩ := drop_eq_cons here
    obtain ⟨steps, taken⟩ | ⟨stays, taken⟩ := Evaluation.takeSteps_of_cons (f := f) (maxD := maxD)
      lengths here
    · rw [taken]
      obtain ⟨length, captures⟩ := ih
        ((Evaluation.length_stepAt (f := f) (maxD := maxD) (gs := gs) k gs[k + 1]?).trans lengths) next
      refine ⟨length, fun j c capture => ?_⟩
      have captured : (e.stepAt gs maxD f k gs[k + 1]?).captures[j]? =
          some (if k = j then { c with step := some f } else c) := by
        rw [Evaluation.stepAt_captures, Evaluation.captureStep, List.getElem?_modify, capture]
        split <;> rfl
      obtain ⟨c', left, stepped, kept⟩ := captures j _ captured
      refine ⟨c', left, fun later steps' => ?_, fun unmoved => ?_⟩
      · rcases Nat.eq_or_lt_of_le later with rfl | after
        · rw [kept (.inl (Nat.lt_succ_self _)), if_pos rfl]
        · exact stepped after ((Evaluation.stepAt_steps _ (by omega)).2 steps')
      · have apart : k ≠ j := by
          rintro rfl
          exact unmoved.elim (lt_irrefl _) fun not_steps => not_steps steps
        rw [kept (unmoved.imp (by omega) (mt (Evaluation.stepAt_steps _ apart.symm).1)), if_neg apart]
    · rw [taken]
      obtain ⟨length, captures⟩ := ih lengths next
      refine ⟨length, fun j c capture => ?_⟩
      obtain ⟨c', left, stepped, kept⟩ := captures j c capture
      refine ⟨c', left, fun later steps' => stepped (Nat.lt_of_le_of_ne later ?_) steps', fun unmoved =>
        kept ?_⟩
      · rintro rfl
        exact stays steps'
      · rcases unmoved with before | not_steps
        · exact .inl (by omega)
        · exact .inr not_steps

/-- Where no group from place `k` on steps, stage 3 leaves the evaluation. -/
theorem Evaluation.takeSteps_of_none {k : Nat} {rest : List Group}
    (lengths : e.captures.length = gs.length) (here : gs.drop k = rest)
    (none_steps : ∀ j, k ≤ j → ¬ Steps gs maxD e j) :
    Evaluation.takeSteps gs maxD f k rest e = e := by
  induction rest generalizing k with
  | nil => rfl
  | cons g rest ih =>
    obtain ⟨-, next, -⟩ := drop_eq_cons here
    obtain ⟨steps, -⟩ | ⟨-, taken⟩ := Evaluation.takeSteps_of_cons (f := f) (maxD := maxD) lengths here
    · exact absurd steps (none_steps k le_rfl)
    · rw [taken]
      exact ih next fun j later => none_steps j (by omega)

/-- What the last step sample of a sample leaves: its chain open, or closed and judged. -/
def LeftBy (gs : List Group) (maxD f : Int) (e after : Evaluation) (k : Nat) : Prop :=
  (∀ next, gs[k + 1]? = some next → (next.entry : Int) ≤ maxD →
    after.chain = some (e.results.length + 1, k + 2) ∧ after.results = e.results ∧
      after.failures = e.failures) ∧
  ((∀ next, gs[k + 1]? = some next → maxD < next.entry) →
    after = { e with captures := after.captures }.closeChain gs k f)

/-- The one step sample of a group. -/
theorem Evaluation.leftBy_stepAt (k : Nat) :
    LeftBy gs maxD f e (e.stepAt gs maxD f k gs[k + 1]?) k := by
  unfold Evaluation.stepAt
  refine ⟨fun next group reached => ?_, fun beyond => ?_⟩
  · rw [group]
    simp only
    rw [if_pos reached]
    exact ⟨rfl, rfl, rfl⟩
  · cases group : gs[k + 1]? with
    | none => rfl
    | some next =>
      simp only
      rw [if_neg (Int.not_le.2 (beyond next group))]
      rfl

/-- A group that steps before another is left open, for the next group is entered then (R117). -/
theorem Evaluation.stepAt_of_later (sorted : gs.Pairwise fun g g' => g.entry < g'.entry) {k last : Nat}
    (later : k < last) (steps : Steps gs maxD e last) :
    e.stepAt gs maxD f k gs[k + 1]? =
      { e.captureStep k f with chain := some (e.results.length + 1, k + 2) } := by
  obtain ⟨g, c, group, -, -, settled⟩ := steps
  obtain ⟨bound, rfl⟩ := List.getElem?_eq_some_iff.1 group
  have next : gs[k + 1]? = some gs[k + 1] := List.getElem?_eq_getElem (by omega)
  have entry : gs[k + 1].entry ≤ gs[last].entry := by
    rcases Nat.eq_or_lt_of_le (Nat.succ_le_of_lt later) with same | before
    · simp only [← same, Nat.succ_eq_add_one, le_refl]
    · exact (List.pairwise_iff_getElem.1 sorted (k + 1) last (by omega) bound before).le
  rw [next, Evaluation.stepAt]
  exact if_pos (by omega)

theorem Evaluation.takeSteps_of_last (sorted : gs.Pairwise fun g g' => g.entry < g'.entry)
    {k last : Nat} {rest : List Group} (lengths : e.captures.length = gs.length)
    (here : gs.drop k = rest) (from_k : k ≤ last) (steps : Steps gs maxD e last)
    (latest : ∀ j, k ≤ j → Steps gs maxD e j → j ≤ last) :
    LeftBy gs maxD f e (Evaluation.takeSteps gs maxD f k rest e) last := by
  induction rest generalizing k e with
  | nil =>
    obtain ⟨g, -, group, -⟩ := steps
    have := (List.getElem?_eq_some_iff.1 group).1
    have : gs.length ≤ k := List.drop_eq_nil_iff.1 here
    omega
  | cons g rest ih =>
    obtain ⟨-, next, -⟩ := drop_eq_cons here
    obtain ⟨-, taken⟩ | ⟨stays, taken⟩ := Evaluation.takeSteps_of_cons (f := f) (maxD := maxD)
      lengths here
    · rw [taken]
      have lengths' := (Evaluation.length_stepAt (e := e) (f := f) (maxD := maxD) (gs := gs) k
        gs[k + 1]?).trans lengths
      have others (j : Nat) (later : k + 1 ≤ j) :
          Steps gs maxD (e.stepAt gs maxD f k gs[k + 1]?) j ↔ Steps gs maxD e j :=
        Evaluation.stepAt_steps _ (by omega)
      rcases Nat.eq_or_lt_of_le from_k with rfl | later
      · rw [Evaluation.takeSteps_of_none lengths' next fun j after steps' => ?_]
        · exact Evaluation.leftBy_stepAt k
        · have := latest j (by omega) ((others j after).1 steps')
          omega
      · have left := ih lengths' next later ((others last later).2 steps) fun j after steps' =>
          latest j (by omega) ((others j after).1 steps')
        rw [Evaluation.stepAt_of_later sorted later steps] at left ⊢
        exact left
    · rw [taken]
      refine ih lengths next ?_ steps fun j after steps' => latest j (by omega) steps'
      exact Nat.lt_of_le_of_ne from_k fun same => stays (same ▸ steps)

/-! ### The judgement of a chain (R118 to R121) -/

theorem leastFmin_spec {members : List Group} (some_member : members ≠ []) :
    (∃ g ∈ members, g.fmin = leastFmin members) ∧ ∀ g ∈ members, leastFmin members ≤ g.fmin := by
  induction members with
  | nil => exact absurd rfl some_member
  | cons g rest ih =>
    cases rest with
    | nil => exact ⟨⟨g, List.mem_singleton_self g, rfl⟩, fun g' mem => by
        rw [List.mem_singleton.1 mem]; rfl⟩
    | cons g' rest =>
      obtain ⟨⟨least, mem, same⟩, bound⟩ := ih (List.cons_ne_nil _ _)
      have first : leastFmin (g :: g' :: rest) = min g.fmin (leastFmin (g' :: rest)) := rfl
      rw [first]
      refine ⟨?_, fun x hx => ?_⟩
      · rcases Nat.le_total g.fmin (leastFmin (g' :: rest)) with le | ge
        · exact ⟨g, List.mem_cons_self .., (Nat.min_eq_left le).symm⟩
        · exact ⟨least, List.mem_cons_of_mem _ mem, by rw [same, Nat.min_eq_right ge]⟩
      · rcases List.mem_cons.1 hx with rfl | later
        · exact Nat.min_le_left ..
        · exact (Nat.min_le_right ..).trans (bound x later)

theorem chainResults_eq (status : GroupStatus) (step mean : Int) (deficit : Option Nat) (index : Nat)
    (members : List Group) :
    chainResults status step mean deficit index members =
      (List.range members.length).map fun i =>
        { index := index + i, status := status, step := some step, mean := some mean
          deficit := if i = 0 then deficit else none } := by
  induction members generalizing deficit index with
  | nil => rfl
  | cons g rest ih =>
    rw [chainResults, ih, List.length_cons, List.range_succ_eq_map, List.map_cons, List.map_map]
    have numbers (i : Nat) : index + 1 + i = index + (i + 1) := by omega
    simp only [Nat.add_zero, if_true, Function.comp_def, Nat.succ_eq_add_one, Nat.add_eq_zero_iff,
      one_ne_zero, and_false, if_false, ite_self, numbers]

theorem judge_isLow (joint : Bool) (step lower upper : Int) :
    (judge joint step lower upper).isLow = decide (step < lower) := by
  unfold judge
  by_cases low : step < lower
  · rw [if_pos low, decide_eq_true low]
    cases joint <;> rfl
  · rw [if_neg low, decide_eq_false low]
    split <;> cases joint <;> rfl

theorem judge_isHigh (joint : Bool) (step lower upper : Int) :
    (judge joint step lower upper).isHigh = decide (¬ step < lower ∧ upper < step) := by
  unfold judge
  by_cases low : step < lower
  · rw [if_pos low, decide_eq_false (by simp [low])]
    cases joint <;> rfl
  · rw [if_neg low]
    by_cases high : upper < step
    · rw [if_pos high, decide_eq_true ⟨low, high⟩]
      cases joint <;> rfl
    · rw [if_neg high, decide_eq_false (by simp [high])]
      cases joint <;> rfl

/-- A capture before the step samples of a sample has the step of the one before it. -/
theorem Evaluation.steps_withBaselines (lengths : e.captures.length = gs.length) (before : Option Int)
    (k : Nat) : Steps gs maxD (e.withBaselines gs before maxD f) k ↔ Steps gs maxD e k := by
  unfold Steps
  refine exists_congr fun g => ?_
  by_cases group : gs[k]? = some g
  · have bound : k < e.captures.length := by
      rw [lengths]
      exact (List.getElem?_eq_some_iff.1 group).1
    have capture := List.getElem?_eq_getElem bound
    rw [Evaluation.withBaselines, baselinesAfter_getElem? group capture, capture]
    split <;> simp
  · simp [group]

/-- The evaluation after stage 3: what it changes of it (R109). -/
theorem Evaluation.takeGroups_frame (e : Evaluation) (gs : List Group) (before : Option Int)
    (maxD f : Int) :
    e.takeGroups gs before maxD f = { e with
      captures := (e.takeGroups gs before maxD f).captures
      pendingBaseline := (e.takeGroups gs before maxD f).pendingBaseline
      chain := (e.takeGroups gs before maxD f).chain
      results := (e.takeGroups gs before maxD f).results
      failures := { e.failures with
        groupLow := (e.takeGroups gs before maxD f).failures.groupLow
        groupHigh := (e.takeGroups gs before maxD f).failures.groupHigh } } := by
  have depth := e.takeGroups_depth (gs := gs) (maxD := maxD) (f := f) before
  have maxDepth := e.takeGroups_maxDepth (gs := gs) (maxD := maxD) (f := f) before
  have first := e.takeGroups_firstBandDepth (gs := gs) (maxD := maxD) (f := f) before
  have window := e.takeGroups_window (gs := gs) (maxD := maxD) (f := f) before
  have overtravel := e.takeGroups_overtravel (gs := gs) (maxD := maxD) (f := f) before
  have high := e.takeGroups_failures_bandHigh (gs := gs) (maxD := maxD) (f := f) before
  have low := e.takeGroups_failures_bandLow (gs := gs) (maxD := maxD) (f := f) before
  simp only [← depth, ← maxDepth, ← first, ← window, ← overtravel, ← high, ← low]

/-- Settles O46: the step samples taken group by group, and the judgement of the chain that closes. -/
theorem closedChainIsJudged : Obligations.ClosedChainIsJudged := by
  refine ⟨fun e gs before maxD f lengths sorted => ?_, fun e gs k f base behind bound baseline => ?_⟩
  · intro after steps
    have lengths' : (e.withBaselines gs before maxD f).captures.length = gs.length :=
      (length_baselinesAfter ..).trans lengths
    have same (k : Nat) : Steps gs maxD (e.withBaselines gs before maxD f) k ↔ steps k :=
      Evaluation.steps_withBaselines lengths before k
    have pending : after.pendingBaseline = pendingAfter gs maxD f :=
      Evaluation.takeGroups_pendingBaseline_eq ..
    obtain ⟨length, captures⟩ := Evaluation.takeSteps_captures (f := f) (maxD := maxD) (k := 0)
      lengths' List.drop_zero
    refine ⟨length, fun k c capture => ?_, Evaluation.takeGroups_frame .., fun none_steps => ?_,
      fun k last latest => ?_⟩
    · have here : k < gs.length := by
        rw [← lengths]
        exact (List.getElem?_eq_some_iff.1 capture).1
      obtain ⟨c', left, stepped, kept⟩ := captures k _
        (baselinesAfter_getElem? (List.getElem?_eq_getElem here) capture)
      refine ⟨c', left, fun hk => stepped (Nat.zero_le _) ((same k).2 hk), fun hk =>
        (kept (.inr (mt (same k).1 hk))).trans ?_⟩
      split <;> rfl
    · have unchanged : after = e.withBaselines gs before maxD f :=
        Evaluation.takeSteps_of_none lengths' List.drop_zero fun j _ => mt (same j).1 (none_steps j)
      rw [unchanged]
      exact ⟨rfl, rfl, rfl⟩
    · obtain ⟨opened, closed⟩ := Evaluation.takeSteps_of_last (f := f) sorted lengths' List.drop_zero
        (Nat.zero_le k) ((same k).2 last) fun j _ hj => latest j ((same j).1 hj)
      refine ⟨opened, fun beyond => (closed beyond).trans ?_⟩
      rw [pending]
      rfl
  · intro members step pins lower upper joint isLow isHigh
    have some_member : members ≠ [] := by
      rw [← List.length_pos_iff, List.length_take, List.length_drop]
      omega
    obtain ⟨least, bound⟩ := leastFmin_spec some_member
    refine ⟨judge (decide joint) step lower upper, leastFmin members, deficitOf members step,
      fun low => ?_, fun low high => ?_, fun low high => ?_, least, bound, ?_, ?_⟩
    · exact (if_pos low).trans (by simp only [decide_eq_true_eq])
    · exact (if_neg low).trans ((if_pos high).trans (by simp only [decide_eq_true_eq]))
    · exact (if_neg low).trans ((if_neg high).trans (by simp only [decide_eq_true_eq]))
    · exact Int.toNat_of_nonneg (le_max_left ..)
    · have deficit (i : Nat) : (if i = 0 then
          (if decide isLow = true then some (deficitOf members step) else none) else none) =
            if isLow ∧ i = 0 then some (deficitOf members step) else none := by
        by_cases first : i = 0 <;> simp [first]
      have numbers (i : Nat) : e.results.length + 1 + i = e.results.length + i + 1 := by omega
      unfold Evaluation.closeChain
      simp only [baseline, Option.getD_some, judge_isLow, judge_isHigh, chainResults_eq, numbers]
      simp only [← deficit]
      rfl

/-! ### The seat (R124 to R126) -/

theorem pushWindow_eq {w : Nat} {window : List (Int × Int)} (few : window.length ≤ w + 1) (d f : Int) :
    pushWindow w window d f = (window ++ [(d, f)]).drop (window.length - w) := by
  unfold pushWindow
  split
  case isTrue room => rw [Nat.sub_eq_zero_of_le (by omega), List.drop_zero]
  case isFalse full =>
    obtain rfl : w = window.length - 1 := by omega
    cases window with
    | nil => simp at full
    | cons x rest => simp

/-- Where the seat is found: in the seat zone, by the slope over a full window (R125, R126). -/
theorem findsSeat_iff (r : TypeRecord) (window : List (Int × Int)) (d f : Int) :
    findsSeat r (seatSlope r.seatWindow window d f) = true ↔
      ∃ d₀ f₀ rest, window = (d₀, f₀) :: rest ∧ window.length = r.seatWindow + 1 ∧ 1 ≤ d - d₀ ∧
        (r.slopeThreshold : Int) ≤ Int.tdiv (f - f₀) (d - d₀) := by
  cases window with
  | nil => simp [seatSlope, findsSeat]
  | cons x rest =>
    obtain ⟨d₀, f₀⟩ := x
    have slope : seatSlope r.seatWindow ((d₀, f₀) :: rest) d f =
      if ((d₀, f₀) :: rest).length = r.seatWindow + 1 ∧ 1 ≤ d - d₀ then
        some (Int.tdiv (f - f₀) (d - d₀)) else none := rfl
    rw [slope]
    by_cases full : ((d₀, f₀) :: rest).length = r.seatWindow + 1 ∧ 1 ≤ d - d₀
    · rw [if_pos full]
      simp only [findsSeat, decide_eq_true_eq]
      constructor
      · intro steep
        exact ⟨d₀, f₀, rest, rfl, full.1, full.2, steep⟩
      · rintro ⟨_, _, _, same, -, -, steep⟩
        cases same
        exact steep
    · rw [if_neg full]
      refine iff_of_false Bool.false_ne_true ?_
      rintro ⟨_, _, _, same, length, gained, -⟩
      cases same
      exact full ⟨length, gained⟩

theorem inSeatZone_iff (r : TypeRecord) (restrike : Bool) (maxD : Int) :
    inSeatZone r restrike maxD = true ↔ restrike = true ∨ (r.seatStart : Int) ≤ maxD := by
  simp [inSeatZone]

/-- Settles O47: the bands and steps at the new maximum depth, the window, and the seat by its slope. -/
theorem seatIsFoundBySlope : Obligations.SeatIsFoundBySlope := by
  intro e r restrike d f few out maxD judged window inZone found
  have depth : deeper e.maxDepth d = maxD := by
    simp only [maxD]
    unfold deeper
    cases e.maxDepth <;> rfl
  have judging : (e.deepen d).judgeSample r restrike e.maxDepth maxD d f = judged := by
    rw [Evaluation.deepen, depth]
  have joined : pushWindow r.seatWindow judged.window d f = window := by
    have kept : judged.window = e.window := Evaluation.judgeSample_window ..
    rw [kept, pushWindow_eq few]
  have seats : (inSeatZone r restrike maxD = true ∧
      findsSeat r (seatSlope r.seatWindow window d f) = true) ↔ found := by
    rw [inSeatZone_iff, findsSeat_iff]
  have work : out = if inSeatZone r restrike maxD = true ∧
        findsSeat r (seatSlope r.seatWindow window d f) = true then
      { eval := { judged with window := window, overtravel := some 0 }
        rose := rose e.maxDepth d, seat := some d }
    else { eval := { judged with window := window }, rose := rose e.maxDepth d, seat := none } := by
    change e.engage r restrike d f = _
    unfold Evaluation.engage
    simp only [depth, judging, joined]
  have deepest : judged.maxDepth = some maxD := Evaluation.judgeSample_maxDepth ..
  have travel : judged.overtravel = e.overtravel := Evaluation.judgeSample_overtravel ..
  refine ⟨?_, ?_, ?_, fun seat => ?_, fun seat => ?_⟩
  · rw [work]; split <;> exact deepest
  · rw [work]; split <;> rfl
  · rw [show out.rose = rose e.maxDepth d by rw [work]; split <;> rfl]
    exact rose_iff ..
  · rw [work, if_pos (seats.2 seat)]; exact ⟨rfl, rfl⟩
  · rw [work, if_neg (mt seats.1 seat)]; exact ⟨rfl, travel⟩

end Sys2Proof.Machine
end

section
/-! Frames and links (section 9), and what the laws give (obligations O50, O51, O52, O53 and O60). -/

namespace Sys2Proof.Machine

variable {s : State}

/-! ### The check byte and the frame (R165, R177) -/

theorem checkByte_append (bytes : List Byte) (b : Byte) :
    checkByte (bytes ++ [b]) = crcByte (checkByte bytes) b := List.foldl_append ..

/-- The check value over a frame and its check byte is 0 (R165). -/
theorem crcByte_self (v : Byte) : crcByte v v = 0 := (congrArg (crcShifts 8) BitVec.xor_self).trans rfl

theorem crcShift_eq (v : Byte) :
    crcShift v = if 128 ≤ v.toNat then (v <<< 1) ^^^ 7 else v <<< 1 := by
  unfold crcShift
  simp only [BitVec.msb_eq_decide, decide_eq_true_eq]

/-- The eight shifts of one byte (R165). -/
theorem crcShifts_eq (v : Byte) : crcShifts 8 v =
    (List.range 8).foldl (fun (v : Byte) _ => if 128 ≤ v.toNat then (v <<< 1) ^^^ 7 else v <<< 1) v := by
  simp only [← crcShift_eq]
  rfl

/-- A frame is its kind, its tag, the payload's length, the payload and the check byte (R177). -/
theorem frameBytes_eq (kind tag : Byte) (payload : List Byte) :
    frameBytes kind tag payload = kind :: tag :: BitVec.ofNat 8 payload.length ::
      (payload ++ [checkByte (kind :: tag :: u8 payload.length ++ payload)]) := rfl

theorem length_frameBytes (kind tag : Byte) (payload : List Byte) :
    (frameBytes kind tag payload).length = payload.length + 4 := by
  simp [frameBytes_eq]

/-! ### The receive assembly (R163, R164) -/

theorem Assembly.receive_bad {a : Assembly} (bad : a.bad = true) (chars : List RxChar) :
    chars.foldl Assembly.receive a = a := by
  induction chars with
  | nil => rfl
  | cons c cs ih =>
    have kept : a.receive c = a := if_pos bad
    rw [List.foldl_cons, kept, ih]

/-- What an assembly makes of characters: it is bad with a stop bit at space or a 255th character, and
otherwise holds them all. -/
theorem Assembly.receive_all (chars : List RxChar) (bytes : List Byte) (room : bytes.length ≤ 254) :
    let a := chars.foldl Assembly.receive { bytes := bytes, bad := false }
    (a.bad = true ↔ (∃ c ∈ chars, c.stopAtMark = false) ∨ 255 ≤ bytes.length + chars.length) ∧
    (a.bad = false → a.bytes = bytes ++ chars.map (·.byte)) := by
  induction chars generalizing bytes with
  | nil =>
    refine ⟨iff_of_false Bool.false_ne_true ?_, fun _ => (List.append_nil _).symm⟩
    rintro (⟨c, mem, -⟩ | many)
    · cases mem
    · simp at many
      omega
  | cons c cs ih =>
    intro a
    by_cases marks : c.stopAtMark = false ∨ 254 ≤ bytes.length
    · have bad : a = { bytes := bytes, bad := true } := by
        refine Eq.trans ?_ (Assembly.receive_bad rfl cs)
        exact congrArg (cs.foldl Assembly.receive) (if_pos marks)
      rw [bad]
      refine ⟨iff_of_true rfl ?_, nofun⟩
      rcases marks with space | full
      · exact .inl ⟨c, List.mem_cons_self .., space⟩
      · right
        simp only [List.length_cons]
        omega
    · have taken : a = cs.foldl Assembly.receive { bytes := bytes ++ [c.byte], bad := false } :=
        congrArg (cs.foldl Assembly.receive) (if_neg marks)
      rw [not_or] at marks
      obtain ⟨mark, fits⟩ := marks
      obtain ⟨bad, held⟩ := ih (bytes ++ [c.byte]) (by simp; omega)
      rw [taken]
      refine ⟨bad.trans ?_, fun good => (held good).trans (by simp)⟩
      simp only [List.length_append, List.length_cons, List.length_nil, List.exists_mem_cons_iff,
        iff_false_intro mark, false_or]
      rw [show bytes.length + (0 + 1) + cs.length = bytes.length + (cs.length + 1) by omega]

/-- A valid frame (R164). -/
theorem Assembly.frame_eq_some_iff (a : Assembly) (f : Frame) : a.frame = some f ↔
    a.bad = false ∧ f.payload.length ≤ 250 ∧ a.bytes = frameBytes f.kind f.tag f.payload := by
  unfold Assembly.frame
  constructor
  · intro valid
    split at valid
    case h_1 kind tag len rest bytes =>
      simp only at valid
      split at valid
      case isTrue checks =>
        obtain ⟨good, short, length, frame⟩ := checks
        cases valid
        refine ⟨good, ?_, frame⟩
        change (rest.take len.toNat).length ≤ 250
        rw [List.length_take]
        exact (Nat.min_le_left ..).trans short
      case isFalse => cases valid
    case h_2 => cases valid
  · rintro ⟨good, short, frame⟩
    have len : (BitVec.ofNat 8 f.payload.length).toNat = f.payload.length := u8_read (by omega)
    have bytes := frame.trans (frameBytes_eq ..)
    rw [bytes]
    simp only [len, List.take_left, good, Config.maxPayload, short, true_and, List.length_append,
      List.length_cons, List.length_nil, ← bytes, frame]
    rfl

/-- Settles O50: a frame written out, the check byte by its recursion, and the assembly by induction on
the characters. -/
theorem frameBytesRoundTrip : Obligations.FrameBytesRoundTrip := by
  refine ⟨fun kind tag payload short => ?_, ⟨rfl, fun bytes b => ?_⟩, fun chars => ?_,
    Assembly.frame_eq_some_iff⟩
  · intro bytes n
    have length : bytes.length = n + 4 := length_frameBytes ..
    have len : (BitVec.ofNat 8 n).toNat = n := u8_read (by omega)
    have place (k : Nat) : bytes[3 + k]? = (payload ++ [checkByte (kind :: tag :: u8 n ++ payload)])[k]? := by
      rw [Nat.add_comm]; rfl
    have body : bytes.take (3 + n) = kind :: tag :: u8 n ++ payload := by
      rw [Nat.add_comm]
      exact congrArg (fun rest => kind :: tag :: BitVec.ofNat 8 n :: rest) List.take_left
    have zero : checkByte bytes = 0 := by
      change checkByte (_ ++ [_]) = 0
      rw [checkByte_append, crcByte_self]
    obtain ⟨bad, held⟩ := Assembly.receive_all (bytes.map fun b => { byte := b, stopAtMark := true }) []
      (Nat.zero_le _)
    refine ⟨length, rfl, rfl, len, List.take_left, ?_, zero, ?_⟩
    · rw [place, body, List.getElem?_append_right le_rfl, Nat.sub_self]
      rfl
    · have good : ((bytes.map fun b => ({ byte := b, stopAtMark := true } : RxChar)).foldl
          Assembly.receive { bytes := [], bad := false }).bad = false := by
        rw [Bool.eq_false_iff, ne_eq, bad]
        rintro (⟨c, mem, space⟩ | many)
        · obtain ⟨b, -, rfl⟩ := List.mem_map.1 mem
          cases space
        · simp only [List.length_nil, List.length_map, length] at many
          omega
      refine (Assembly.frame_eq_some_iff _ ⟨kind, tag, payload⟩).2 ⟨good, short, ?_⟩
      rw [held good, List.nil_append, List.map_map]
      exact List.map_id _
  · rw [checkByte_append, crcByte, crcShifts_eq]
  · obtain ⟨bad, held⟩ := Assembly.receive_all chars [] (Nat.zero_le _)
    rw [List.length_nil, Nat.zero_add] at bad
    exact ⟨bad, held⟩

/-! ### Frames by their kind (R166, R169, R171) -/

theorem State.request_of_reset {l : Link} {kind tag : Byte} {payload : List Byte} {f : State → Answer}
    (held : s.resetHeld = true) : s.request l kind tag payload f = s := if_pos (.inl held)

theorem State.request_of_down {l : Link} {kind tag : Byte} {payload : List Byte} {f : State → Answer}
    (down : (s.link l).up = false) : s.request l kind tag payload f = s := if_pos (.inr (.inr down))

theorem State.request_of_full {l : Link} {kind tag : Byte} {payload : List Byte} {f : State → Answer}
    (released : s.resetHeld = false) (short : payload.length ≤ 250) (up : (s.link l).up = true)
    (full : 16 ≤ (s.link l).out.length) :
    s.request l kind tag payload f = s.setLink l { s.link l with overrun := true } := by
  refine (if_neg ?_).trans (if_pos full)
  simp [released, up, Config.maxPayload, short]

theorem State.hello_of {l : Link} {tag : Byte} {payload : List Byte}
    (other : ¬ (s.resetHeld = false ∧ (s.link l).up = false ∧ payload = [])) :
    s.hello l tag payload = s.request l 1 tag payload (helloAnswer l payload) := if_neg other

/-- Every frame is HELLO or a request of its link (R169). -/
theorem frameEnds_cases (l : Link) (kind tag : Byte) (payload : List Byte) (s : State) :
    (kind = 1 ∧ frameEnds l kind tag payload s = .next (s.hello l tag payload)) ∨
    ∃ kind' f, frameEnds l kind tag payload s = .next (s.request l kind' tag payload f) := by
  cases l with
  | head h =>
    unfold frameEnds headFrame
    simp only
    split
    case h_1 one => exact .inl ⟨BitVec.eq_of_toNat_eq one, rfl⟩
    all_goals exact .inr ⟨_, _, rfl⟩
  | cell =>
    unfold frameEnds cellFrame
    simp only
    split
    case h_1 one => exact .inl ⟨BitVec.eq_of_toNat_eq one, rfl⟩
    all_goals exact .inr ⟨_, _, rfl⟩

theorem frameEnds_of_reset (held : s.resetHeld = true) (l : Link) (kind tag : Byte)
    (payload : List Byte) : frameEnds l kind tag payload s = .next s := by
  obtain ⟨-, ended⟩ | ⟨_, _, ended⟩ := frameEnds_cases l kind tag payload s
  · rw [ended, State.hello_of (by simp [held]), State.request_of_reset held]
  · rw [ended, State.request_of_reset held]

theorem frameEnds_of_down {l : Link} (down : (s.link l).up = false) {kind : Byte} {payload : List Byte}
    (other : ¬ (kind = 1 ∧ payload = [])) (tag : Byte) :
    frameEnds l kind tag payload s = .next s := by
  obtain ⟨one, ended⟩ | ⟨_, _, ended⟩ := frameEnds_cases l kind tag payload s
  · rw [ended, State.hello_of fun ⟨_, _, empty⟩ => other ⟨one, empty⟩, State.request_of_down down]
  · rw [ended, State.request_of_down down]

theorem frameEnds_of_full {l : Link} {payload : List Byte} (released : s.resetHeld = false)
    (short : payload.length ≤ 250) (up : (s.link l).up = true) (full : 16 ≤ (s.link l).out.length)
    (kind tag : Byte) :
    frameEnds l kind tag payload s = .next (s.setLink l { s.link l with overrun := true }) := by
  obtain ⟨-, ended⟩ | ⟨_, _, ended⟩ := frameEnds_cases l kind tag payload s
  · rw [ended, State.hello_of (by simp [up]), State.request_of_full released short up full]
  · rw [ended, State.request_of_full released short up full]

/-- A request command is the frame of its link and kind (log 9). -/
theorem exec_of_requestFrame {c : Instr} {l : Link} {f : Frame} (frame : requestFrame c = some (l, f))
    (s : State) : exec c s = frameEnds l f.kind f.tag f.payload s := by
  cases c <;> cases frame
  case hello => cases l <;> rfl
  all_goals rfl

theorem State.clearAssembly_of_empty {l : Link} (assembly : (s.link l).assembly = [])
    (good : (s.link l).assemblyBad = false) : s.clearAssembly l = s := by
  rw [State.clearAssembly, ← assembly, ← good]
  exact State.setLink_self ..

/-- The characters of a frame on a link whose assembly is empty (R163, R164). -/
theorem exec_invalidFrame_of {l : Link} (released : s.resetHeld = false)
    (assembly : (s.link l).assembly = []) (good : (s.link l).assemblyBad = false)
    (chars : List RxChar) :
    exec (.invalidFrame l chars) s =
      match (chars.foldl Assembly.receive { bytes := [], bad := false }).frame with
      | none => .next s
      | some f => frameEnds l f.kind f.tag f.payload s := by
  change execInvalidFrame l chars s = _
  rw [execInvalidFrame, released, LinkState.assemble, assembly, good,
    State.clearAssembly_of_empty assembly good]
  rfl

/-- Settles O51: each discard by the branch of the request that makes it. -/
theorem framesAreDiscarded : Obligations.FramesAreDiscarded := by
  refine ⟨fun l s released => ⟨fun chars invalid assembly good => ?_,
    fun chars f valid assembly good => ?_, fun kind tag payload short => ⟨fun down other =>
      frameEnds_of_down down other tag, fun up full =>
      frameEnds_of_full released short up full kind tag⟩⟩, fun _ _ _ _ _ => ⟨rfl, rfl⟩,
    fun c l f s frame => ⟨exec_of_requestFrame frame s, fun held => ?_⟩⟩
  · rw [exec_invalidFrame_of released assembly good, invalid]
  · rw [exec_invalidFrame_of released assembly good, valid]
    rfl
  · rw [exec_of_requestFrame frame, frameEnds_of_reset held]

/-! ### HELLO, unknown requests and replies (R168, R169, R172) -/

theorem State.raiseLink_of_empty {l : Link} (out : (s.link l).out = []) (tag : Byte) :
    s.raiseLink l tag = s.setLink l { s.link l with
      up := true, out := [replyFrame 1 tag (helloReply l false)] } := by
  simp [State.raiseLink, State.offer, LinkState.offer, out, Config.outputSlots]

/-- A kind that is not a request of its link (R169). -/
theorem frameEnds_of_unknown {l : Link} {kind : Byte} (unknown : kind.toNat ∉ requestKinds l)
    (tag : Byte) (payload : List Byte) (s : State) :
    frameEnds l kind tag payload s = .next (s.unknown l kind tag payload) := by
  cases l with
  | head h =>
    unfold frameEnds headFrame
    simp only
    split
    case h_10 => rfl
    all_goals exact absurd (by simp [requestKinds, *]) unknown
  | cell =>
    unfold frameEnds cellFrame
    simp only
    split
    case h_16 => rfl
    all_goals exact absurd (by simp [requestKinds, *]) unknown

theorem exec_hello (l : Link) (tag : Byte) (payload : List Byte) (s : State) :
    exec (.hello l tag payload) s = .next (s.hello l tag payload) := rfl

theorem State.takes_iff (l : Link) : s.takes l = true ↔
    s.resetHeld = false ∧ (s.link l).up = true ∧ (s.link l).out.length < 16 := by
  simp only [State.takes, Bool.and_eq_true, Bool.not_eq_true', and_assoc]
  exact and_congr_right fun _ => and_congr_right fun _ => decide_eq_true_iff

/-- Settles O52: HELLO by the link's state, and the parts of a reply. -/
theorem helloAndUnknownRequests : Obligations.HelloAndUnknownRequests := by
  refine ⟨fun l tag s released => ?_, fun kind tag r => ⟨rfl, rfl, ?_, fun low => ?_, fun high => ?_⟩,
    by decide⟩
  · intro number
    have no : number = linkNo l := by cases l <;> rfl
    rw [no]
    refine ⟨fun down empty => ?_, fun payload down some_bytes => ?_, fun takes => ?_,
      fun payload takes some_bytes short => ?_, fun kind payload takes unknown short => ?_⟩
    · rw [exec_hello, State.hello, if_pos ⟨released, down, rfl⟩, State.raiseLink_of_empty empty]
      rfl
    · rw [exec_hello, State.hello_of fun ⟨_, _, empty⟩ => some_bytes empty, State.request_of_down down]
    · obtain ⟨-, up, -⟩ := (State.takes_iff l).1 takes
      rw [exec_hello, State.hello_of (by simp [up])]
      exact congrArg _ (State.request_answer (helloAnswer_stamps l []) takes (Nat.zero_le _) rfl)
    · rw [exec_hello, State.hello_of fun ⟨_, _, empty⟩ => some_bytes empty]
      refine congrArg _ (State.request_turnDown (helloAnswer_stamps l payload) takes short ?_)
      exact if_pos (by simpa using some_bytes)
    · refine (frameEnds_of_unknown unknown tag payload s).trans ?_
      exact congrArg _ (State.request_answer (unknownAnswer_stamps kind) takes short rfl)
  · cases r.status <;> decide
  · change (replyKind kind).toNat = _
    rw [replyKind, if_pos low]
    bv_omega
  · change replyKind kind = _
    rw [replyKind, if_neg (Nat.not_lt.2 high)]

/-! ### Transmission (R162, R170, R171) -/

/-- Settles O53: where no claim is due the clock moves alone, and the frame is taken or ended then. -/
theorem transmissionTakesTheOldestFrame : Obligations.TransmissionTakesTheOldestFrame := by
  intro l s k
  refine ⟨fun f rest st fields free out payload quiet => ?_, fun kept => ?_, fun x sending quiet => ?_,
    fun free => ?_⟩
  · intro sent clock
    change Host.Outcome.next (s.startFrame l) = _
    have begun : s.startFrame l = (s.advance (k.idleSince + 40)).beginFrame l := by
      unfold State.startFrame
      simp only
      rw [show (s.link l).tx = none from free, show (s.link l).out = f :: rest from out]
      rfl
    have link : (s.notBefore (k.idleSince + 40)).link l = k := State.notBefore_link ..
    rw [begun, quiet.advance, State.beginFrame]
    simp only [link]
    rw [out]
    simp only [payload]
    rfl
  · change Host.Outcome.next (s.startFrame l) = _
    unfold State.startFrame
    simp only
    split
    case h_1 free out =>
      rcases kept with sending | empty
      · exact absurd free sending
      · rw [show (s.link l).out = [] from empty] at out; cases out
    case h_2 => rfl
  · intro clock
    change Host.Outcome.next (s.endFrame l) = _
    have time : x.since + x.bytes.length * Config.charTime = x.since + 10 * x.bytes.length := by
      simp only [Config.charTime]; omega
    rw [State.endFrame, show (s.link l).tx = some x from sending]
    simp only
    rw [time, quiet.advance, State.freeLine, State.notBefore_link]
    rfl
  · change Host.Outcome.next (s.endFrame l) = _
    rw [State.endFrame, show (s.link l).tx = none from free]

/-! ### What the laws give -/

/-- Two heads with a granted claim or a stroke are on different sites (R49). -/
theorem SiteLaw.site_ne (law : SiteLaw s) {h h' : Head} {c c' : Claim} (apart : h ≠ h')
    (active : (s.monitor h).state.active = true) (active' : (s.monitor h').state.active = true)
    (claim : (s.monitor h).claim = some c) (claim' : (s.monitor h').claim = some c') :
    c.site ≠ c'.site := by
  have holds {h : Head} {c : Claim} (active : (s.monitor h).state.active = true)
      (claim : (s.monitor h).claim = some c) : s.claimedBy c.site h ∨ s.pressedBy c.site h :=
    ((HeadState.active_iff _).1 active).imp (fun armed => (law.claimed c.site h).2 ⟨armed, c, claim, rfl⟩)
      fun inStroke => (law.pressing c.site h).2 ⟨inStroke, c, claim, rfl⟩
  intro same
  have first := holds active claim
  have second := holds active' claim'
  rw [← same] at second
  obtain claimed | pressed := first <;> obtain claimed' | pressed' := second
  · exact apart (State.claimedBy_unique claimed claimed')
  · exact State.claimedBy_not_pressedBy claimed pressed'
  · exact State.claimedBy_not_pressedBy claimed' pressed
  · exact apart (State.pressedBy_unique pressed pressed')

theorem State.library_toList (s : State) : s.library.toList = (List.finRange 48).map s.typeSlot := by
  refine List.ext_getElem (by simp) fun i hi _ => ?_
  simp [State.typeSlot]

/-- The types that heads have a copy of. -/
def State.copiedTypes (s : State) : List (Fin 48) :=
  s.monitors.toList.filterMap fun m => m.copy.map (·.typeNo)

theorem State.length_copiedTypes (s : State) : s.copiedTypes.length ≤ 4 :=
  List.length_filterMap_le ..

/-- A type with users is a copy of some head (R28). -/
theorem UserLaw.mem_copiedTypes (law : UserLaw s) {i : Fin 48} (used : 1 ≤ (s.typeSlot i).users) :
    i ∈ s.copiedTypes := by
  rw [law.users] at used
  obtain ⟨m, mem, uses⟩ := List.countP_pos_iff.1 used
  simp only [Monitor.uses, Bool.and_eq_true, beq_iff_eq] at uses
  exact List.mem_filterMap.2 ⟨m, mem, uses.2⟩

/-- A pending record is one of a type that a head uses: there are at most four (R26). -/
theorem UserLaw.pendingCount_le (law : UserLaw s) : s.pendingCount ≤ 4 := by
  have count : s.pendingCount =
      ((List.finRange 48).filter fun i => (s.typeSlot i).waiting.isSome).length := by
    rw [State.pendingCount, State.library_toList, List.countP_map, List.countP_eq_length_filter]
    rfl
  have used : ((List.finRange 48).filter fun i => (s.typeSlot i).waiting.isSome) ⊆ s.copiedTypes := by
    intro i mem
    have waits : (s.typeSlot i).waiting.isSome = true := by simpa using mem
    exact law.mem_copiedTypes ((law.library i).draining ((law.library i).pending.2 waits))
  rw [count]
  exact (((List.nodup_finRange 48).filter _).subperm used).length_le.trans s.length_copiedTypes

/-- Settles O60: each bound from the law that names it. -/
theorem lawsKeepHeadsApart : Obligations.LawsKeepHeadsApart := by
  refine ⟨fun s h h' c c' law apart active active' claim claim' => ⟨?_, fun z mem mem' => ?_⟩,
    fun s h sound => ?_, fun s law => ?_, fun s law => ⟨law.pendingCount_le, fun i => ?_⟩,
    fun s h granted law grant => ?_⟩
  · exact law.toSiteLaw.site_ne apart active active' claim claim'
  · have first := (law.held h c active claim z).2 mem
    rw [(law.held h' c' active' claim' z).2 mem'] at first
    exact apart (Option.some.inj first).symm
  · rw [State.permitOut, (sound h).permit, ← HeadState.inStroke_iff]
    simp [and_assoc]
  · have room : s.records.length + s.reserved + s.owed ≤ 64 := law.room
    omega
  · rw [law.users]
    exact List.countP_le_length
  · have armed : (s.monitor h).state = .armed := (law.heads h).timer.1 (by rw [grant]; rfl)
    obtain ⟨due, soon⟩ := s.expiryEvent_bounds granted
    have lives : s.clock ≤ eventTime (s.expiryEvent granted) :=
      law.timers h granted (s.expiryEvent granted) armed grant due
    exact lives.trans_lt soon

end Sys2Proof.Machine
end

section
/-! The events that end every claim and stroke (sections 4, 5 and 7): what they leave of each head, of the
sites, the zones and the library (obligations O22, O41 and O43). -/

namespace Sys2Proof.Machine

variable {s t u : State} {h : Head}

/-! ### One head -/

/-- With no claim waiting, the release of a user drops none. -/
theorem State.releaseUser_of_nil (empty : s.queue = []) (i : Fin 48) :
    (s.releaseUser i).state = s.setType i (s.typeSlot i).release := by
  obtain released | released := s.releaseUser_eq i
  · exact released
  · have none_waits : (s.setType i (s.typeSlot i).release).waitingOnType i = [] := by
      simp [State.waitingOnType, empty]
    rw [released, State.dropBroken, none_waits, State.dropAll_nil]

@[simp] theorem State.returnSite_monitor (h j : Head) : (s.returnSite h).monitor j = s.monitor j := by
  rw [State.monitor, State.returnSite_monitors, State.monitor]

@[simp] theorem State.returnSite_link (h : Head) (l : Link) : (s.returnSite h).link l = s.link l := by
  unfold State.returnSite
  split
  · exact State.changeSite_link ..
  · rfl

/-- What the end of a head's armed claim leaves of the heads, with no claim waiting. -/
theorem State.endArmed_monitor_of_nil (empty : s.queue = []) (h j : Head) :
    (s.endArmed h).monitor j = if j = h then Monitor.idle else s.monitor j := by
  have before : ((s.returnSite h).freeZones h).monitor j = s.monitor j := by simp
  have empty' : ((s.returnSite h).freeZones h).queue = [] := by simpa using empty
  unfold State.endArmed State.releaseUserOf
  split
  · rw [State.releaseUser_of_nil empty', State.toIdle_monitor, State.setType_monitor, before]
  · rw [State.toIdle_monitor, before]

theorem State.endArmed_link_of_nil (empty : s.queue = []) (h : Head) (l : Link) :
    (s.endArmed h).link l = s.link l := by
  have before : ((s.returnSite h).freeZones h).link l = s.link l := by simp
  have empty' : ((s.returnSite h).freeZones h).queue = [] := by simpa using empty
  unfold State.endArmed State.releaseUserOf
  split
  · rw [State.releaseUser_of_nil empty', State.toIdle_link, State.setType_link, before]
  · rw [State.toIdle_link, before]

/-- What the end of its claim or stroke leaves of a head. -/
structure HeadEnded (r : ClaimReason) (cause : Cause) (rest : Monitor → Monitor) (h : Head)
    (s t : State) : Prop where
  resting : (s.monitor h).state.active = false →
    t.monitor h = rest (s.monitor h) ∧ t.link (.head h) = s.link (.head h)
  armed : ∀ c, (s.monitor h).state = .armed → (s.monitor h).claim = some c →
    t.monitor h = Monitor.idle ∧
    t.link (.head h) = (s.link (.head h)).offer (eventFrame 67 (u8 c.site.val ++ u8 r.code))
  stroke : ∀ c w k, (s.monitor h).state.inStroke = true → (s.monitor h).claim = some c →
    (s.monitor h).copy = some w → (s.monitor h).stroke = some k →
    t.monitor h = { s.monitor h with
      state := .halted, permit := false
      stroke := some (k.aborted h c w (s.front h).heldCount (s.monitor h).state.afterContact
        cause []) } ∧
    t.front h = (s.front h).restartTare ∧
    t.link (.head h) = (s.link (.head h)).offer (eventFrame 71 (u8 c.site.val ++ u8 cause.code))
  front : (s.monitor h).state.inStroke = false → t.front h = s.front h

/-- The heads left in RETRACT or HALTED: those that were, and those in a stroke. -/
theorem HeadEnded.unacknowledged {r : ClaimReason} {cause : Cause} {rest : Monitor → Monitor}
    (ended : HeadEnded r cause rest h s t) (rests : ∀ m, (rest m).state = m.state)
    (sound : HeadSound (s.monitor h)) : (t.monitor h).state.unacknowledged =
      ((s.monitor h).state.inStroke || (s.monitor h).state.unacknowledged) := by
  cases active : (s.monitor h).state.active with
  | false =>
    have outside : (s.monitor h).state.inStroke = false := eq_false_of_ne_true fun inStroke => by
      rw [(HeadState.active_iff _).2 (.inr inStroke)] at active; cases active
    rw [(ended.resting active).1, rests, outside, Bool.false_or]
  | true =>
    obtain armed | inStroke := (HeadState.active_iff _).1 active
    · obtain ⟨c, claim⟩ := Option.isSome_iff_exists.1
        (sound.claimed (by simp [armed]) (by simp [armed])).1
      rw [(ended.armed c armed claim).1, armed]
      rfl
    · obtain ⟨c, w, k, claim, copy, stroke, -⟩ := sound.exists_stroke inStroke
      rw [(ended.stroke c w k inStroke claim copy stroke).1, inStroke]
      rfl

/-- A head as it was. -/
structure HeadSame (h : Head) (s t : State) : Prop where
  monitor : t.monitor h = s.monitor h
  front : t.front h = s.front h
  link : t.link (.head h) = s.link (.head h)

theorem HeadSame.refl (h : Head) (s : State) : HeadSame h s s := ⟨rfl, rfl, rfl⟩

theorem HeadSame.trans (st : HeadSame h s t) (tu : HeadSame h t u) : HeadSame h s u :=
  ⟨tu.monitor.trans st.monitor, tu.front.trans st.front, tu.link.trans st.link⟩

theorem HeadEnded.of_same {r : ClaimReason} {cause : Cause} {rest : Monitor → Monitor}
    (before : HeadSame h s t) (ended : HeadEnded r cause rest h t u) : HeadEnded r cause rest h s u := by
  obtain ⟨monitor, front, link⟩ := before
  obtain ⟨resting, armed, stroke, kept⟩ := ended
  rw [monitor, link] at resting
  simp only [monitor, link] at armed
  simp only [monitor, front, link] at stroke
  rw [monitor, front] at kept
  exact ⟨resting, armed, stroke, kept⟩

theorem HeadEnded.then_same {r : ClaimReason} {cause : Cause} {rest : Monitor → Monitor}
    (ended : HeadEnded r cause rest h s t) (after : HeadSame h t u) : HeadEnded r cause rest h s u := by
  obtain ⟨monitor, front, link⟩ := after
  obtain ⟨resting, armed, stroke, kept⟩ := ended
  exact ⟨by rwa [monitor, link], by simpa only [monitor, link] using armed,
    by simpa only [monitor, front, link] using stroke, by rwa [front]⟩

/-- One head of a state without waiting claims has ended, and the others are as they were. -/
structure EndsOne (r : ClaimReason) (cause : Cause) (rest : Monitor → Monitor) (h : Head)
    (s t : State) : Prop where
  queue : t.queue = []
  own : HeadEnded r cause rest h s t
  others : ∀ j, j ≠ h → HeadSame j s t

theorem HeadState.not_active_of_not_armed_of_not_inStroke {st : HeadState} (unarmed : st ≠ .armed)
    (outside : st.inStroke = false) : st.active = false := by
  rw [Bool.eq_false_iff, ne_eq, HeadState.active_iff, outside]
  simpa using unarmed

/-- An armed claim is revoked. -/
theorem EndsOne.revoke {r : ClaimReason} (told : r ≠ .linkDown) (empty : s.queue = [])
    (armed : (s.monitor h).state = .armed) (cause : Cause) (rest : Monitor → Monitor) :
    EndsOne r cause rest h s (s.revoke h r) := by
  have queue : (s.revoke h r).queue = [] := by simpa [empty] using revoke_queue_le (s := s) h r
  have outside : (s.monitor h).state.inStroke = false := by rw [armed]; rfl
  have revoked : (∃ c, (s.monitor h).claim = some c ∧
      s.revoke h r = (s.endArmed h).eventRevoked h c.site r) ∨
      (s.monitor h).claim = none ∧ s.revoke h r = s.endArmed h := by
    unfold State.revoke
    cases (s.monitor h).claim with
    | none => exact .inr ⟨rfl, rfl⟩
    | some c => exact .inl ⟨c, rfl, if_neg told⟩
  have front (j : Head) : (s.revoke h r).front j = s.front j := by simp [State.front]
  have monitor (j : Head) : (s.revoke h r).monitor j = (s.endArmed h).monitor j := by
    obtain ⟨c, -, same⟩ | ⟨-, same⟩ := revoked <;> rw [same]
    exact State.event_monitor ..
  refine ⟨queue, ⟨fun quiet => ?_, fun c _ claim => ⟨?_, ?_⟩, fun c w k inStroke => ?_, fun _ =>
    front h⟩, fun j other => ⟨?_, front j, ?_⟩⟩
  · rw [armed] at quiet; cases quiet
  · rw [monitor, State.endArmed_monitor_of_nil empty, if_pos rfl]
  · obtain ⟨c', claim', same⟩ | ⟨none_there, -⟩ := revoked
    · cases claim.symm.trans claim'
      rw [same, State.eventRevoked, State.event_link, if_pos rfl, State.endArmed_link_of_nil empty]
    · rw [none_there] at claim; cases claim
  · rw [outside] at inStroke; cases inStroke
  · rw [monitor, State.endArmed_monitor_of_nil empty, if_neg other]
  · obtain ⟨c', -, same⟩ | ⟨-, same⟩ := revoked
    · rw [same, State.eventRevoked, State.event_link, if_neg (by simpa using other),
        State.endArmed_link_of_nil empty]
    · rw [same, State.endArmed_link_of_nil empty]

/-- A stroke is aborted. -/
theorem EndsOne.abortStroke (empty : s.queue = []) (inStroke : (s.monitor h).state.inStroke = true)
    (r : ClaimReason) (cause : Cause) (rest : Monitor → Monitor) :
    EndsOne r cause rest h s (s.abortStroke h cause []).state := by
  have queue : (s.abortStroke h cause []).state.queue = [] := by
    simpa [empty] using abortStroke_queue_le (s := s) h cause []
  have active : (s.monitor h).state.active = true := (HeadState.active_iff _).2 (.inr inStroke)
  have unarmed : (s.monitor h).state ≠ .armed := fun armed => by rw [armed] at inStroke; cases inStroke
  by_cases held : ∃ c w k, (s.monitor h).claim = some c ∧ (s.monitor h).copy = some w ∧
      (s.monitor h).stroke = some k
  · obtain ⟨c, w, k, claim, copy, stroke⟩ := held
    have aborted := State.abortStroke_of claim copy stroke cause []
    rw [Monitor.halt_eq] at aborted
    have ended : (s.abortStroke h cause []).state = _ := congrArg Passing.state aborted
    simp only at ended
    rw [State.releaseUser_of_nil (by simpa using empty)] at ended
    refine ⟨queue, ⟨fun quiet => ?_, fun c' armed => absurd armed unarmed, ?_, fun outside => ?_⟩,
      fun j other => ?_⟩
    · rw [active] at quiet; cases quiet
    · intro c' w' k' _ claim' copy' stroke'
      cases claim.symm.trans claim'
      cases copy.symm.trans copy'
      cases stroke.symm.trans stroke'
      rw [ended]
      exact ⟨by simp [State.eventAborted], by simp [State.eventAborted],
        by simp [State.eventAborted, State.event_link]⟩
    · rw [inStroke] at outside; cases outside
    · rw [ended]
      exact ⟨by simp [State.eventAborted, other], by simp [State.eventAborted, other],
        by simp [State.eventAborted, other]⟩
  · have kept : (s.abortStroke h cause []).state = s := by
      unfold State.abortStroke
      simp only
      split
      case h_1 c w k claim copy stroke => exact absurd ⟨c, w, k, claim, copy, stroke⟩ held
      case h_2 => rfl
    rw [kept]
    refine ⟨empty, ⟨fun quiet => ?_, fun c' armed => absurd armed unarmed, ?_, fun _ => rfl⟩,
      fun j _ => HeadSame.refl j s⟩
    · rw [active] at quiet; cases quiet
    · intro c w k _ claim copy stroke
      exact absurd ⟨c, w, k, claim, copy, stroke⟩ held

/-- A head without a granted claim or a stroke. -/
theorem EndsOne.quiet (empty : s.queue = []) (quiet : (s.monitor h).state.active = false)
    (r : ClaimReason) (cause : Cause) (rest : Monitor → Monitor) :
    EndsOne r cause rest h s (s.setMonitor h (rest (s.monitor h))) := by
  refine ⟨empty, ⟨fun _ => ⟨by simp, by simp⟩, fun c armed => ?_, fun c w k inStroke => ?_,
    fun _ => by simp⟩, fun j other => ⟨by simp [other], by simp, by simp⟩⟩
  · rw [armed] at quiet; cases quiet
  · rw [(HeadState.active_iff _).2 (.inr inStroke)] at quiet; cases quiet

/-- One head under an event that ends every claim and stroke. -/
theorem endsOne_endHead {r : ClaimReason} (told : r ≠ .linkDown) (empty : s.queue = []) (cause : Cause)
    (h : Head) : EndsOne r cause (·.joinCauses [cause]) h s (s.endHead r cause h) := by
  unfold State.endHead State.strike
  split_ifs with armed inStroke
  · exact .revoke told empty armed _ _
  · exact .abortStroke empty inStroke _ _ _
  · exact .quiet empty (HeadState.not_active_of_not_armed_of_not_inStroke armed
      (eq_false_of_ne_true inStroke)) r cause _

/-- One head under a warm reset. -/
theorem endsOne_resetHead (empty : s.queue = []) (h : Head) :
    EndsOne .supervisorReset .supervisorReset id h s (s.resetHead h) := by
  unfold State.resetHead
  split_ifs with armed inStroke
  · exact .revoke (by decide) empty armed _ _
  · exact .abortStroke empty inStroke _ _ _
  · have rested := EndsOne.quiet empty (HeadState.not_active_of_not_armed_of_not_inStroke armed
      (eq_false_of_ne_true inStroke)) .supervisorReset .supervisorReset id
    rwa [id, State.setMonitor_self] at rested

/-- The heads of a list ended one after the other: each of them once, the others as they were. -/
theorem endsOne_foldl {op : State → Head → State} {r : ClaimReason} {cause : Cause}
    {rest : Monitor → Monitor}
    (one : ∀ {s : State}, s.queue = [] → ∀ h, EndsOne r cause rest h s (op s h)) (hs : List Head)
    (once : hs.Nodup) (empty : s.queue = []) :
    (hs.foldl op s).queue = [] ∧ (∀ h ∈ hs, HeadEnded r cause rest h s (hs.foldl op s)) ∧
      ∀ h ∉ hs, HeadSame h s (hs.foldl op s) := by
  induction hs generalizing s with
  | nil => exact ⟨empty, fun h mem => absurd mem List.not_mem_nil, fun h _ => HeadSame.refl h s⟩
  | cons h hs ih =>
    obtain ⟨apart, once'⟩ := List.nodup_cons.1 once
    obtain ⟨queue, own, others⟩ := one empty h
    obtain ⟨empty', ended, same⟩ := ih once' queue
    refine ⟨empty', fun j mem => ?_, fun j out => ?_⟩
    · rcases List.mem_cons.1 mem with rfl | later
      · exact own.then_same (same j apart)
      · exact (ended j later).of_same (others j fun here => apart (here ▸ later))
    · rw [List.mem_cons, not_or] at out
      exact (others j out.1).trans (same j out.2)

theorem nodup_allHeads : allHeads.Nodup := by decide

end Sys2Proof.Machine
end

section
/-! The events that end every claim and stroke, continued: the sites, the zones and the users that they
give back (sections 2.4, 3.5 and 4.1). -/

namespace Sys2Proof.Machine

variable {s t u : State} {h : Head} {cause : Cause}

/-! ### Sites, zones and types -/

/-- A site once the claims and strokes of some heads have ended. -/
def SiteEntry.endedAmong (hs : List Head) (cause : Cause) (s : State) (e : SiteEntry) : SiteEntry :=
  match e.state with
  | .claimed h g => if h ∈ hs then { e with state := g.toState } else e
  | .pressing h _ => if h ∈ hs then e.apply (.abort cause (s.monitor h).state.afterContact) else e
  | _ => e

theorem SiteEntry.endedAmong_of_unheld {e : SiteEntry} (unheld : e.state.unheld) (hs : List Head)
    (cause : Cause) (s : State) : e.endedAmong hs cause s = e := by
  unfold SiteEntry.endedAmong
  split
  case h_1 h g held => exact absurd held (unheld h g).1
  case h_2 h g held => exact absurd held (unheld h g).2
  case h_3 => rfl

theorem SiteEntry.endedAmong_of_claimed {e : SiteEntry} {g : GrantFrom}
    (held : e.state = .claimed h g) (hs : List Head) (cause : Cause) (s : State) :
    e.endedAmong hs cause s = if h ∈ hs then { e with state := g.toState } else e := by
  rw [SiteEntry.endedAmong, held]

theorem SiteEntry.endedAmong_of_pressing {e : SiteEntry} {g : GrantFrom}
    (held : e.state = .pressing h g) (hs : List Head) (cause : Cause) (s : State) :
    e.endedAmong hs cause s =
      if h ∈ hs then e.apply (.abort cause (s.monitor h).state.afterContact) else e := by
  rw [SiteEntry.endedAmong, held]

theorem SiteEntry.endedAmong_allHeads (e : SiteEntry) (cause : Cause) (s : State) :
    e.endedAmong allHeads cause s = siteEnded cause s e := by
  cases held : e.state <;> simp [SiteEntry.endedAmong, siteEnded, held, mem_allHeads]

/-- The claims and strokes of some heads give back their sites, their zones and their users. -/
structure GivesBack (hs : List Head) (cause : Cause) (s t : State) : Prop where
  site : ∀ n, t.site n = (s.site n).map (·.endedAmong hs cause s)
  free : ∀ z h, s.holder z = some h → h ∈ hs → (s.monitor h).state = .armed → t.holder z = none
  held : ∀ z, (∀ h, s.holder z = some h → h ∈ hs → (s.monitor h).state ≠ .armed) →
    t.holder z = s.holder z
  typeSlot : ∀ i, t.typeSlot i =
    TypeSlot.release^[hs.countP fun h => (s.monitor h).uses i] (s.typeSlot i)

theorem GivesBack.nil (cause : Cause) (s : State) : GivesBack [] cause s s where
  site := fun n => by
    have none_ends (e : SiteEntry) : e.endedAmong [] cause s = e := by
      unfold SiteEntry.endedAmong
      split <;> simp
    simp [none_ends]
  free := fun _ _ _ mem => absurd mem List.not_mem_nil
  held := fun _ _ => rfl
  typeSlot := fun _ => rfl

/-- One head, and then the others. -/
theorem GivesBack.cons {hs : List Head} (first : GivesBack [h] cause s t)
    (others : GivesBack hs cause t u) (apart : h ∉ hs) (same : ∀ j, j ≠ h → t.monitor j = s.monitor j) :
    GivesBack (h :: hs) cause s u := by
  have kept {j : Head} (mem : j ∈ hs) : t.monitor j = s.monitor j := same j fun own => apart (own ▸ mem)
  refine ⟨fun n => ?_, fun z j held mem armed => ?_, fun z none_armed => ?_, fun i => ?_⟩
  · rw [others.site, first.site, Option.map_map]
    congr 1
    funext e
    rw [Function.comp]
    by_cases held : ∃ j g, e.state = .claimed j g ∨ e.state = .pressing j g
    · obtain ⟨j, g, claimed | pressing⟩ := held
      · rw [SiteEntry.endedAmong_of_claimed claimed, SiteEntry.endedAmong_of_claimed claimed]
        by_cases own : j = h
        · rw [if_pos (by simp [own]), if_pos (by simp [own]),
            SiteEntry.endedAmong_of_unheld g.toState_unheld]
        · rw [if_neg (by simp [own]), SiteEntry.endedAmong_of_claimed claimed]
          simp [own]
      · rw [SiteEntry.endedAmong_of_pressing pressing, SiteEntry.endedAmong_of_pressing pressing]
        by_cases own : j = h
        · rw [if_pos (by simp [own]), if_pos (by simp [own]),
            SiteEntry.endedAmong_of_unheld (SiteEntry.apply_unheld pressing _)]
        · rw [if_neg (by simp [own]), SiteEntry.endedAmong_of_pressing pressing, same j own]
          simp [own]
    · have unheld : e.state.unheld := fun j g =>
        ⟨fun claimed => held ⟨j, g, .inl claimed⟩, fun pressing => held ⟨j, g, .inr pressing⟩⟩
      simp only [SiteEntry.endedAmong_of_unheld unheld]
  · rcases List.mem_cons.1 mem with rfl | later
    · have gone := first.free z j held (List.mem_singleton_self j) armed
      exact (others.held z fun k holds => by rw [gone] at holds; cases holds).trans gone
    · have still : t.holder z = some j := by
        refine (first.held z fun k holds own => ?_).trans held
        cases held.symm.trans holds
        exact absurd (List.mem_singleton.1 own ▸ later) apart
      exact others.free z j still later (by rw [kept later, armed])
  · have still := first.held z fun j holds own => none_armed j holds
      (List.mem_singleton.1 own ▸ List.mem_cons_self)
    refine (others.held z fun j holds later => ?_).trans still
    rw [kept later]
    exact none_armed j (still ▸ holds) (List.mem_cons_of_mem _ later)
  · have later : hs.countP (fun j => (t.monitor j).uses i) = hs.countP fun j => (s.monitor j).uses i :=
      List.countP_congr fun j mem => by rw [kept mem]
    rw [others.typeSlot, first.typeSlot, ← Function.iterate_add_apply, later, ← List.countP_append]
    exact congrArg (TypeSlot.release^[·] _) (List.perm_append_comm.countP_eq _)

/-- A site that a head does not hold. -/
theorem SiteEntry.endedAmong_of_other {e : SiteEntry} (cause : Cause)
    (other : ∀ g, e.state ≠ .claimed h g ∧ e.state ≠ .pressing h g) :
    e.endedAmong [h] cause s = e := by
  unfold SiteEntry.endedAmong
  split
  case h_1 j g held =>
    refine if_neg fun own => ?_
    cases List.mem_singleton.1 own
    exact (other g).1 held
  case h_2 j g held =>
    refine if_neg fun own => ?_
    cases List.mem_singleton.1 own
    exact (other g).2 held
  case h_3 => rfl

/-- One site that a head gives back, and the others as they are. -/
theorem site_endedAmong (law : ClaimLaw none s) {c : Claim} {e e' : SiteEntry}
    (claim : (s.monitor h).claim = some c) (site : s.site c.site = some e)
    (own : t.site c.site = some e') (ended : e.endedAmong [h] cause s = e')
    (others : ∀ n, n ≠ c.site → t.site n = s.site n) (n : Fin 96) :
    t.site n = (s.site n).map (·.endedAmong [h] cause s) := by
  by_cases here : n = c.site
  · rw [here, own, site, Option.map_some, ended]
  · rw [others n here]
    cases there : s.site n with
    | none => rfl
    | some f =>
      rw [Option.map_some, SiteEntry.endedAmong_of_other]
      refine fun g => ⟨fun held => here ?_, fun held => here ?_⟩
      · obtain ⟨-, c', claim', rfl⟩ := (law.claimed n h).1 ⟨f, g, there, held⟩
        cases claim.symm.trans claim'
        rfl
      · obtain ⟨-, c', claim', rfl⟩ := (law.pressing n h).1 ⟨f, g, there, held⟩
        cases claim.symm.trans claim'
        rfl

/-- The user of one head released, and the other types as they are. -/
theorem typeSlot_releases {w : WorkingCopy} (active : (s.monitor h).state.active = true)
    (copy : (s.monitor h).copy = some w)
    (own : t.typeSlot w.typeNo = (s.typeSlot w.typeNo).release)
    (others : ∀ i, i ≠ w.typeNo → t.typeSlot i = s.typeSlot i) (i : Fin 48) :
    t.typeSlot i = TypeSlot.release^[[h].countP fun j => (s.monitor j).uses i] (s.typeSlot i) := by
  rw [List.countP_singleton, Monitor.uses, active, copy, Bool.true_and]
  by_cases here : i = w.typeNo
  · subst here; simpa using own
  · rw [if_neg (by simpa using Ne.symm here)]
    exact others i here

/-- A head without a granted claim gives nothing back. -/
theorem GivesBack.of_quiet (law : ClaimLaw none s) (quiet : (s.monitor h).state.active = false)
    (sites : t.sites = s.sites) (zones : t.zones = s.zones) (library : t.library = s.library) :
    GivesBack [h] cause s t := by
  have unarmed : (s.monitor h).state ≠ .armed := fun armed => by rw [armed] at quiet; cases quiet
  refine ⟨fun n => ?_, fun z j _ own armed => ?_, fun z _ => by rw [State.holder, zones]; rfl,
    fun i => ?_⟩
  · rw [State.site, sites]
    change s.site n = _
    cases there : s.site n with
    | none => rfl
    | some e =>
      rw [Option.map_some, SiteEntry.endedAmong_of_other]
      refine fun g => ⟨fun held => unarmed ((law.claimed n h).1 ⟨e, g, there, held⟩).1, fun held => ?_⟩
      have inStroke := ((law.pressing n h).1 ⟨e, g, there, held⟩).1
      rw [(HeadState.active_iff _).2 (.inr inStroke)] at quiet
      cases quiet
  · exact absurd (List.mem_singleton.1 own ▸ armed) unarmed
  · rw [State.typeSlot, library, List.countP_singleton, Monitor.uses, quiet]
    rfl

/-- An armed claim is revoked. -/
theorem GivesBack.revoke (law : ClaimLaw none s) (empty : s.queue = [])
    (armed : (s.monitor h).state = .armed) (r : ClaimReason) :
    GivesBack [h] cause s (s.revoke h r) := by
  obtain ⟨claimed, copied⟩ := (law.heads h).claimed (by simp [armed]) (by simp [armed])
  obtain ⟨c, claim⟩ := Option.isSome_iff_exists.1 claimed
  obtain ⟨w, copy⟩ := Option.isSome_iff_exists.1 copied
  obtain ⟨e, g, site, held⟩ := law.site_of_armed armed claim
  have empty' : (((s.changeSite c.site SiteEntry.unclaim).freeZones h).toIdle h).queue = [] := by
    simpa using empty
  have ended : s.endArmed h =
      (((s.changeSite c.site SiteEntry.unclaim).freeZones h).toIdle h).setType w.typeNo
        (s.typeSlot w.typeNo).release := by
    rw [State.endArmed_eq copy, State.returnSite, claim, State.releaseUser_of_nil empty']
    simp
  have revoked : (s.revoke h r).sites = (s.endArmed h).sites ∧
      (s.revoke h r).zones = (s.endArmed h).zones ∧
      (s.revoke h r).library = (s.endArmed h).library := by
    unfold State.revoke
    rw [claim]
    simp only
    split <;> exact ⟨rfl, rfl, rfl⟩
  obtain ⟨sites, zones, library⟩ := revoked
  refine ⟨site_endedAmong law claim site (e' := { e with state := g.toState }) ?_ ?_ fun n other => ?_,
    fun z j holds own _ => ?_, fun z kept => ?_,
    typeSlot_releases ((HeadState.active_iff _).2 (.inl armed)) copy ?_ fun i other => ?_⟩
  · rw [State.site, sites, ended]
    change State.site _ _ = _
    simp [site, SiteEntry.unclaim, held]
  · simp [SiteEntry.endedAmong_of_claimed held]
  · rw [State.site, sites, ended]
    change State.site _ _ = _
    simp [other]
  · rw [State.holder, zones, ended]
    change State.holder _ _ = _
    rw [State.setType_holder, State.toIdle_holder, State.freeZones_holder, State.changeSite_holder,
      holds, List.mem_singleton.1 own, if_pos rfl]
  · rw [State.holder, zones, ended]
    change State.holder _ _ = _
    rw [State.setType_holder, State.toIdle_holder, State.freeZones_holder, State.changeSite_holder,
      if_neg fun holds => kept h holds (List.mem_singleton_self h) armed]
  · rw [State.typeSlot, library, ended]
    change State.typeSlot _ _ = _
    simp
  · rw [State.typeSlot, library, ended]
    change State.typeSlot _ _ = _
    simp [other]

/-- A stroke is aborted. -/
theorem GivesBack.abortStroke (law : ClaimLaw none s) (empty : s.queue = [])
    (inStroke : (s.monitor h).state.inStroke = true) (cause : Cause) :
    GivesBack [h] cause s (s.abortStroke h cause []).state := by
  obtain ⟨c, w, k, claim, copy, stroke, -⟩ := (law.heads h).exists_stroke inStroke
  obtain ⟨e, g, site, held⟩ := law.site_of_inStroke inStroke claim
  have unarmed : (s.monitor h).state ≠ .armed := fun armed => by rw [armed] at inStroke; cases inStroke
  have ended : (s.abortStroke h cause []).state = _ :=
    congrArg Passing.state (State.abortStroke_of claim copy stroke cause [])
  simp only at ended
  rw [State.releaseUser_of_nil (by simpa using empty)] at ended
  rw [ended]
  refine ⟨site_endedAmong law claim site
      (e' := e.apply (.abort cause (s.monitor h).state.afterContact)) ?_ ?_ fun n other => ?_,
    fun z j _ own armed => absurd (List.mem_singleton.1 own ▸ armed) unarmed,
    fun z _ => by simp [State.eventAborted],
    typeSlot_releases ((HeadState.active_iff _).2 (.inr inStroke)) copy ?_ fun i other => ?_⟩
  · simp [State.eventAborted, site]
  · simp [SiteEntry.endedAmong_of_pressing held]
  · simp [State.eventAborted, other]
  · simp [State.eventAborted]
  · simp [State.eventAborted, other]

theorem givesBack_endHead (law : ClaimLaw none s) (empty : s.queue = []) (r : ClaimReason)
    (cause : Cause) (h : Head) : GivesBack [h] cause s (s.endHead r cause h) := by
  unfold State.endHead State.strike
  split_ifs with armed inStroke
  · exact .revoke law empty armed r
  · exact .abortStroke law empty inStroke cause
  · exact .of_quiet law (HeadState.not_active_of_not_armed_of_not_inStroke armed
      (eq_false_of_ne_true inStroke)) rfl rfl rfl

theorem givesBack_endHeads {r : ClaimReason} (told : r ≠ .linkDown) (code : cause.code ≤ 13)
    (hs : List Head) (once : hs.Nodup) (law : ClaimLaw none s) (empty : s.queue = []) :
    GivesBack hs cause s (hs.foldl (fun s h => s.endHead r cause h) s) := by
  induction hs generalizing s with
  | nil => exact .nil cause s
  | cons h hs ih =>
    obtain ⟨apart, once'⟩ := List.nodup_cons.1 once
    obtain ⟨queue, -, others⟩ := endsOne_endHead told empty cause h
    exact (givesBack_endHead law empty r cause h).cons
      (ih once' (LawsKept.endHead law r code h).claims queue) apart fun j other =>
        (others j other).monitor

/-! ### The users of a type released together (R28) -/

theorem TypeSlot.release_of_spent {slot : TypeSlot} (spent : slot.users = 0) : slot.release = slot := by
  rw [TypeSlot.release, if_neg (by omega)]
  cases slot
  cases spent
  rfl

theorem TypeSlot.release_of_steady {slot : TypeSlot} (steady : slot.state ≠ .draining ∨ 1 < slot.users) :
    slot.release = { slot with users := slot.users - 1 } := by
  rw [TypeSlot.release, if_neg]
  rintro ⟨draining, last⟩
  rcases steady with other | many
  · exact other draining
  · omega

theorem TypeSlot.iterate_release_of_spent {slot : TypeSlot} (spent : slot.users = 0) (n : Nat) :
    TypeSlot.release^[n] slot = slot :=
  Function.iterate_fixed (TypeSlot.release_of_spent spent) n

theorem TypeSlot.iterate_release_of_steady {slot : TypeSlot} (n : Nat)
    (steady : slot.state ≠ .draining ∨ n < slot.users) :
    TypeSlot.release^[n] slot = { slot with users := slot.users - n } := by
  induction n with
  | zero => rfl
  | succ n ih =>
    have many : slot.state ≠ .draining ∨ 1 < slot.users - n := steady.imp_right fun few => by omega
    rw [Function.iterate_succ_apply', ih (steady.imp_right fun few => by omega)]
    exact TypeSlot.release_of_steady (slot := { slot with users := slot.users - n }) many

theorem TypeSlot.iterate_release_of_last {slot : TypeSlot} (draining : slot.state = .draining)
    (used : 1 ≤ slot.users) {n : Nat} (all : slot.users ≤ n) :
    TypeSlot.release^[n] slot = slot.drained := by
  have before := TypeSlot.iterate_release_of_steady (slot := slot) (slot.users - 1)
    (.inr (by omega))
  have one : slot.users - (slot.users - 1) = 1 := by omega
  have last : TypeSlot.release^[slot.users] slot = slot.drained := by
    conv_lhs => rw [show slot.users = slot.users - 1 + 1 by omega]
    rw [Function.iterate_succ_apply', before, one, TypeSlot.release, if_pos ⟨draining, rfl⟩]
    rfl
  rw [show n = (n - slot.users) + slot.users by omega, Function.iterate_add_apply, last,
    TypeSlot.iterate_release_of_spent slot.drained_users]

theorem TypeSlot.afterReleases_iterate (slot : TypeSlot) (n : Nat) :
    slot.afterReleases n (TypeSlot.release^[n] slot) := by
  refine ⟨fun steady => slot.iterate_release_of_steady n steady, fun p draining used all waiting => ?_⟩
  rw [TypeSlot.iterate_release_of_last draining used all]
  exact TypeSlot.drained_of waiting

end Sys2Proof.Machine
end

section
/-! ESTOP and BOARD_ABORT (sections 3.1, 4.9, 7.4 and 7.5): every claim and stroke ends (obligations O22
and O41). -/

namespace Sys2Proof.Machine

variable {s t u : State} {h : Head} {cause : Cause}

/-! ### The state without the waiting claims -/

/-- The drop of every waiting claim leaves a head with a granted claim as it is, and no other has one. -/
theorem dropAll_monitor_cases (law : ClaimLaw none s) (r : ClaimReason) (h : Head) :
    (s.dropAll none r s.queue).monitor h = s.monitor h ∨
      (s.dropAll none r s.queue).monitor h = Monitor.idle ∧ (s.monitor h).state.free := by
  rw [State.dropAll_monitor]
  cases queued : s.queue.any (·.head == h) with
  | false => exact .inl rfl
  | true =>
    obtain ⟨e, mem, own⟩ := List.any_eq_true.1 queued
    exact .inr ⟨rfl, law.queued (List.mem_map.2 ⟨e, mem, eq_of_beq own⟩)⟩

theorem dropAll_headSame (r : ClaimReason) (out : h ∉ s.queue.map (·.head)) :
    HeadSame h s (s.dropAll none r s.queue) := by
  have apart : s.queue.any (·.head == h) = false := by
    rw [Bool.eq_false_iff, ne_eq, List.any_eq_true]
    rintro ⟨e, mem, own⟩
    exact out (List.mem_map.2 ⟨e, mem, eq_of_beq own⟩)
  refine ⟨by rw [State.dropAll_monitor, apart, if_neg Bool.false_ne_true], by simp [State.front],
    State.dropAll_link _ _ _ _ fun e mem same => out ?_⟩
  exact List.mem_map.2 ⟨e, mem, (Link.head.inj same).symm⟩

/-- What is given back from the state without the waiting claims is given back from the state itself. -/
theorem GivesBack.of_dropAll {hs : List Head} (law : ClaimLaw none s) {r : ClaimReason}
    (back : GivesBack hs cause (s.dropAll none r s.queue) t) : GivesBack hs cause s t := by
  have site (n : Fin 96) : (s.dropAll none r s.queue).site n = s.site n := by simp [State.site]
  have holder (z : Fin 32) : (s.dropAll none r s.queue).holder z = s.holder z := by simp [State.holder]
  have typeSlot (i : Fin 48) : (s.dropAll none r s.queue).typeSlot i = s.typeSlot i := by
    simp [State.typeSlot]
  have armed (h : Head) : ((s.dropAll none r s.queue).monitor h).state = .armed ↔
      (s.monitor h).state = .armed := by
    obtain same | ⟨idle, free⟩ := dropAll_monitor_cases law r h
    · rw [same]
    · exact iff_of_false (by rw [idle]; nofun) free.quiet.1
  obtain ⟨sites, free, held, releases⟩ := back
  simp only [holder, armed, ne_eq] at free held
  refine ⟨fun n => ?_, free, held, fun i => ?_⟩
  · rw [sites, site]
    cases there : s.site n with
    | none => rfl
    | some e =>
      rw [Option.map_some, Option.map_some]
      by_cases pressed : ∃ h g, e.state = .pressing h g
      · obtain ⟨h, g, pressing⟩ := pressed
        have inStroke := ((law.pressing n h).1 ⟨e, g, there, pressing⟩).1
        obtain same | ⟨-, free⟩ := dropAll_monitor_cases law r h
        · rw [SiteEntry.endedAmong_of_pressing pressing, SiteEntry.endedAmong_of_pressing pressing, same]
        · rw [free.quiet.2.1] at inStroke
          cases inStroke
      · unfold SiteEntry.endedAmong
        split
        case h_2 h g pressing => exact absurd ⟨h, g, pressing⟩ pressed
        all_goals rfl
  · have uses (h : Head) : ((s.dropAll none r s.queue).monitor h).uses i = (s.monitor h).uses i := by
      obtain same | ⟨idle, free⟩ := dropAll_monitor_cases law r h
      · rw [same]
      · rw [Monitor.uses, Monitor.uses, idle, free.quiet.2.2]
        rfl
    rw [releases, typeSlot]
    simp only [uses]

/-! ### The events that end everything -/

theorem endEverything_givesBack (law : ClaimLaw none s) {r : ClaimReason} (told : r ≠ .linkDown)
    (code : cause.code ≤ 13) : GivesBack allHeads cause s (s.endEverything r cause) :=
  have dropped := LawsKept.dropAll law none r fun e mem => List.mem_map_of_mem (f := (·.head)) mem
  .of_dropAll law (givesBack_endHeads told code allHeads nodup_allHeads dropped.claims (by simp))

theorem endEverything_site (law : ClaimLaw none s) {r : ClaimReason} (told : r ≠ .linkDown)
    (code : cause.code ≤ 13) (n : Fin 96) :
    (s.endEverything r cause).site n = (s.site n).map (siteEnded cause s) := by
  rw [(endEverything_givesBack law told code).site]
  simp only [SiteEntry.endedAmong_allHeads]

theorem Monitor.joinCauses_of_not_halted {m : Monitor} (other : m.state ≠ .halted) (cs : List Cause) :
    m.joinCauses cs = m := by
  obtain ⟨k, halted, -⟩ | ⟨-, kept⟩ := m.joinCauses_cases cs
  · exact absurd halted other
  · exact kept

/-- A cause that joins the further-cause set of a HALTED head (R139, R142, R143, R144). -/
theorem Monitor.joinCauses_of_halted {m : Monitor} {k : Stroke} {a : AbortItems}
    (halted : m.state = .halted) (stroke : m.stroke = some k) (abort : k.abort = some a)
    (cause : Cause) : ∃ further, m.joinCauses [cause] =
      { m with stroke := some { k with abort := some { a with further := further } } } ∧
      ∀ d, d ∈ further ↔ d ∈ a.further ∨ (d = cause ∧ cause ≠ a.primary) := by
  refine ⟨(a.join cause).further, ?_, mem_join_further a cause⟩
  obtain ⟨k', -, stroke', joined⟩ | ⟨not | none_there, -⟩ := m.joinCauses_cases [cause]
  · cases stroke.symm.trans stroke'
    rw [joined, abort]
    exact congrArg (fun b => { m with stroke := some { k with abort := some b } }) (joinAll_eq a [cause])
  · exact absurd halted not
  · rw [none_there] at stroke; cases stroke

theorem ClaimLaw.out_of_not_free (law : ClaimLaw none s) (granted : ¬ (s.monitor h).state.free) :
    h ∉ s.queue.map (·.head) := fun queued => granted (law.queued queued)

theorem endEverything_headEnded {r : ClaimReason} (told : r ≠ .linkDown) (h : Head) :
    HeadEnded r cause (·.joinCauses [cause]) h (s.dropAll none r s.queue) (s.endEverything r cause) :=
  (endsOne_foldl (fun empty h => endsOne_endHead told empty cause h) allHeads nodup_allHeads
    (s := s.dropAll none r s.queue) (by simp)).2.1 h (mem_allHeads h)

theorem Monitor.joinCauses_state (m : Monitor) (cs : List Cause) : (m.joinCauses cs).state = m.state := by
  obtain ⟨k, -, -, joined⟩ | ⟨-, kept⟩ := m.joinCauses_cases cs
  · rw [joined]
  · rw [kept]

theorem endEverything_unacknowledged (law : ClaimLaw none s) {r : ClaimReason} (told : r ≠ .linkDown)
    (h : Head) : ((s.endEverything r cause).monitor h).state.unacknowledged =
      ((s.monitor h).state.inStroke || (s.monitor h).state.unacknowledged) := by
  have sound : HeadSound ((s.dropAll none r s.queue).monitor h) :=
    (RangesKept.dropAll none r s.queue).heads law.heads h
  rw [(endEverything_headEnded told h).unacknowledged (fun m => m.joinCauses_state _) sound]
  obtain same | ⟨idle, free⟩ := dropAll_monitor_cases law r h
  · rw [same]
  · obtain st | st := free <;> rw [idle, st] <;> rfl

/-- Every claim and stroke ends, each as the rules have it, and no head but its own is told. -/
theorem endEverything_endedBy (law : ClaimLaw none s) {r : ClaimReason} (told : r ≠ .linkDown)
    (code : cause.code ≤ 13) : EndedBy r cause s (s.endEverything r cause) := by
  have ended (h : Head) : HeadEnded r cause (·.joinCauses [cause]) h (s.dropAll none r s.queue)
      (s.endEverything r cause) := endEverything_headEnded told h
  have empty := (LawsKept.endEverything law r code).2.1
  have same (h : Head) (out : h ∉ s.queue.map (·.head)) :
      HeadEnded r cause (·.joinCauses [cause]) h s (s.endEverything r cause) :=
    (ended h).of_same (dropAll_headSame r out)
  have out_of {h : Head} (granted : ¬ (s.monitor h).state.free) := law.out_of_not_free granted
  have back := endEverything_givesBack law told code
  refine ⟨empty, fun h idle => ?_, fun h e mem own => ?_, fun h c armed claim => ?_,
    fun h c w k inStroke claim copy stroke => ?_, fun h k a halted stroke abort => ?_, fun h retract => ?_,
    fun h outside => ?_, fun z => ?_, by simp, fun i => ?_, by simp, by simp, by simp⟩
  · have out : h ∉ s.queue.map (·.head) := fun queued => by
      have waits := (law.waiting h nofun).2 queued
      rw [idle] at waits; cases waits
    obtain ⟨monitor, link⟩ := (same h out).resting (by rw [idle]; rfl)
    exact ⟨monitor.trans (Monitor.joinCauses_of_not_halted (by rw [idle]; nofun) _), link⟩
  · subst own
    have monitor : (s.dropAll none r s.queue).monitor e.head = Monitor.idle := by
      rw [State.dropAll_monitor]
      exact if_pos (List.any_eq_true.2 ⟨e, mem, beq_self_eq_true e.head⟩)
    obtain ⟨monitor', link⟩ := (ended e.head).resting (by rw [monitor]; rfl)
    rw [monitor] at monitor'
    have idle : Monitor.idle.state ≠ .halted := nofun
    exact ⟨monitor'.trans (Monitor.joinCauses_of_not_halted idle _),
      link.trans (s.dropAll_link_of_mem told law.once mem)⟩
  · exact (same h (out_of fun free => free.quiet.1 armed)).armed c armed claim
  · refine (same h (out_of fun free => ?_)).stroke c w k inStroke claim copy stroke
    rw [free.quiet.2.1] at inStroke; cases inStroke
  · have granted : ¬ (s.monitor h).state.free := fun free => by
      obtain st | st := free <;> rw [halted] at st <;> cases st
    obtain ⟨monitor, link⟩ := (same h (out_of granted)).resting (by rw [halted]; rfl)
    obtain ⟨further, joined, members⟩ := Monitor.joinCauses_of_halted halted stroke abort cause
    exact ⟨link, further, monitor.trans joined, members⟩
  · have granted : ¬ (s.monitor h).state.free := fun free => by
      obtain st | st := free <;> rw [retract] at st <;> cases st
    obtain ⟨monitor, link⟩ := (same h (out_of granted)).resting (by rw [retract]; rfl)
    exact ⟨monitor.trans (Monitor.joinCauses_of_not_halted (by rw [retract]; nofun) _), link⟩
  · have front : (s.dropAll none r s.queue).front h = s.front h := by simp [State.front]
    rw [← front]
    refine (ended h).front ?_
    rw [State.dropAll_monitor]
    split
    · rfl
    · exact outside
  · cases held : s.holder z with
    | none => exact (back.held z fun h holds => by rw [held] at holds; cases holds).trans held
    | some h =>
      by_cases armed : (s.monitor h).state = .armed
      · exact (back.free z h held (mem_allHeads h) armed).trans (if_pos armed).symm
      · refine ((back.held z fun j holds _ => ?_).trans held).trans (if_neg armed).symm
        cases held.symm.trans holds
        exact armed
  · rw [back.typeSlot]
    exact (s.typeSlot i).afterReleases_iterate _

/-! ### ESTOP (R83, R88, R142) -/

/-- Settles O41: ESTOP ends every claim and stroke, and its release passes the queue. -/
theorem estopEndsEverything : Obligations.EstopEndsEverything := by
  refine ⟨fun s law => ?_, fun s empty => ?_, fun s => rfl⟩
  · obtain ⟨claims, -, -⟩ := siteLaw_iff.1 law
    have claims' : ClaimLaw none { s with estop := true } := { claims with }
    exact ⟨_, rfl, { endEverything_endedBy claims' (r := .estop) (cause := .estop) nofun (by decide) with },
      by simp, fun h => by simp [State.permitOut], by simp,
      endEverything_site claims' (r := .estop) nofun (by decide), by simp⟩
  · exact congrArg Host.Outcome.next (State.pass_of_nil (s := { s with estop := false }) none empty)

/-! ### BOARD_ABORT (R45, R144) -/

theorem boardAbortAnswer_badLength {payload : List Byte} (s : State) (some_bytes : payload ≠ []) :
    boardAbortAnswer payload s = s.turnDown .badLength :=
  if_pos (by simpa using some_bytes)

theorem boardAbortAnswer_noBoard (closed : s.board.state = .noBoard) :
    boardAbortAnswer [] s = s.turnDown .noBoard := by
  simp [boardAbortAnswer, closed]

theorem boardAbortAnswer_aborting (aborting : s.board.state = .aborting) :
    boardAbortAnswer [] s = s.answer .ok [2] := by
  simp only [boardAbortAnswer, aborting]
  exact if_neg (by simp)

theorem boardAbortAnswer_open (isOpen : s.board.state = .isOpen) :
    boardAbortAnswer [] s = s.abortBoard.answer .ok (u8 s.abortBoard.board.state.code) := by
  simp only [boardAbortAnswer, isOpen]
  exact if_neg (by simp)

/-- BOARD_ABORT turned down. -/
theorem exec_boardAbort_turnDown {payload : List Byte} {st : Status} {tag : Byte}
    (takes : s.takes .cell = true) (short : payload.length ≤ 250)
    (refused : boardAbortAnswer payload (s.withReply .cell 35 tag st []) =
      (s.withReply .cell 35 tag st []).turnDown st) :
    exec (.boardAbort tag payload) s = .next (s.withReply .cell 35 tag st []) :=
  congrArg Host.Outcome.next (State.request_turnDown (boardAbortAnswer_stamps payload) takes short refused)

theorem exec_boardAbort_open {tag : Byte} (takes : s.takes .cell = true)
    (isOpen : s.board.state = .isOpen) : exec (.boardAbort tag []) s =
      .next (s.abortBoard.withReply .cell 35 tag .ok (u8 s.abortBoard.board.state.code)) := by
  refine congrArg Host.Outcome.next (State.request_cell (boardAbortAnswer_stamps []) takes (by simp) (by simp)
    fun k => ?_)
  rw [boardAbortAnswer_open (s := s.withCell k) isOpen, State.withCell_abortBoard, State.withCell_board,
    State.answer]

/-- What an event that ends everything leaves does not lie on the cell link, with the board or with its
sites. -/
theorem EndedBy.of_same {r : ClaimReason} (ended : EndedBy r cause s t) (queue : u.queue = t.queue)
    (monitor : ∀ h, u.monitor h = t.monitor h) (front : ∀ h, u.front h = t.front h)
    (link : ∀ h, u.link (.head h) = t.link (.head h)) (holder : ∀ z, u.holder z = t.holder z)
    (typeSlot : ∀ i, u.typeSlot i = t.typeSlot i) (records : u.records = t.records)
    (frame : u.period = t.period ∧ u.clock = t.clock ∧ u.resetHeld = t.resetHeld) :
    EndedBy r cause s u where
  queue := queue.trans ended.queue
  idle := by simpa only [monitor, link] using ended.idle
  waiting := by simpa only [monitor, link] using ended.waiting
  armed := by simpa only [monitor, link] using ended.armed
  stroke := by simpa only [monitor, front, link] using ended.stroke
  halted := by simpa only [monitor, link] using ended.halted
  retract := by simpa only [monitor, link] using ended.retract
  fronts := by simpa only [front] using ended.fronts
  zones := by simpa only [holder] using ended.zones
  records := records.trans ended.records
  library := by simpa only [typeSlot] using ended.library
  frame := by simpa only [frame] using ended.frame

theorem EndedBy.withReply {r : ClaimReason} (ended : EndedBy r cause s t) (kind tag : Byte)
    (st : Status) (bytes : List Byte) : EndedBy r cause s (t.withReply .cell kind tag st bytes) :=
  ended.of_same (by simp) (by simp) (by simp) (fun _ => rfl) (by simp) (by simp) (by simp) (by simp)

theorem EndedBy.closeBoard {r : ClaimReason} (ended : EndedBy r cause s t) :
    EndedBy r cause s t.closeBoard :=
  ended.of_same (by simp) (fun _ => rfl) (fun _ => rfl) (fun _ => rfl) (fun _ => rfl) (by simp)
    (by simp) (by simp)

/-- The state that BOARD_ABORT has made ABORTING (R45). -/
def State.aborting (s : State) : State := { s with board := { s.board with state := .aborting } }

theorem State.abortBoard_eq (s : State) :
    s.abortBoard = (s.aborting.endEverything .boardAbort .boardAbort).closeIfAborted := rfl

/-- Settles O22: BOARD_ABORT ends every claim and stroke, and the board closes where no head is then
HALTED or RETRACT. -/
theorem boardAbortEndsEverything : Obligations.BoardAbortEndsEverything := by
  intro tag s takes
  refine ⟨fun payload some_bytes short => ?_, fun closed => ?_, fun aborting => ?_, fun isOpen law => ?_⟩
  · exact exec_boardAbort_turnDown takes short (boardAbortAnswer_badLength _ some_bytes)
  · exact exec_boardAbort_turnDown takes (by simp) (boardAbortAnswer_noBoard closed)
  · exact congrArg Host.Outcome.next (State.request_answer (boardAbortAnswer_stamps []) takes (by simp)
      (boardAbortAnswer_aborting aborting))
  · intro stays
    obtain ⟨claims, -, -⟩ := siteLaw_iff.1 law
    have claims' : ClaimLaw none s.aborting := { claims with }
    have ended : EndedBy .boardAbort .boardAbort s (s.aborting.endEverything .boardAbort .boardAbort) :=
      { endEverything_endedBy claims' (r := .boardAbort) (cause := .boardAbort) nofun (by decide) with }
    have sites (n : Fin 96) : (s.aborting.endEverything .boardAbort .boardAbort).site n =
        (s.site n).map (siteEnded .boardAbort s) :=
      endEverything_site claims' (r := .boardAbort) (cause := .boardAbort) nofun (by decide) n
    have board := s.aborting.endEverything_board .boardAbort .boardAbort
    have kept : (s.aborting.endEverything .boardAbort .boardAbort).someUnacknowledged = true ↔ stays := by
      rw [State.someUnacknowledged_iff]
      refine exists_congr fun h => ?_
      have left := endEverything_unacknowledged (cause := .boardAbort) claims' (r := .boardAbort) nofun h
      rw [or_comm, ← HeadState.unacknowledged_iff, left, Bool.or_eq_true, HeadState.unacknowledged_iff,
        or_comm (a := _ = HeadState.retract)]
      rfl
    have link : s.abortBoard.cellLink = s.cellLink := s.abortBoard_cellLink
    refine ⟨_, exec_boardAbort_open takes isOpen, ?_⟩
    by_cases st : stays
    · rw [State.abortBoard_eq, State.closeIfAborted_of_unacknowledged (kept.2 st)]
      refine ⟨ended.withReply .., by simp [State.aborting], fun _ => ⟨(State.withReply_board ..).trans board,
        fun n => (State.withReply_site ..).trans (sites n), ?_⟩,
        fun none_stays => absurd st none_stays⟩
      rw [State.withReply_cellLink, State.endEverything_cellLink, State.withReply_cellLink, board]
      rfl
    · have closed := State.closeIfAborted_of_aborting (congrArg Board.state board)
        (eq_false_of_ne_true (mt kept.1 st))
      rw [State.abortBoard_eq, closed]
      refine ⟨ended.closeBoard.withReply .., by simp [State.aborting], fun stay => absurd stay st,
        fun _ => ⟨State.withReply_board .., fun n => ?_, ?_⟩⟩
      · rw [State.withReply_site, State.closeBoard_site]
      · rw [State.withReply_cellLink, State.closeBoard_cellLink, State.endEverything_cellLink]
        rfl

end Sys2Proof.Machine
end

section
/-! WARM_RESET (section 9.8): every block at the start of a session (obligation O43). -/

namespace Sys2Proof.Machine

variable {s t : State} {h : Head}

/-! ### What is cleared last -/

@[simp] theorem State.clearSession_front (h : Head) :
    s.clearSession.front h = (s.front h).warmReset := by
  cases h <;> rfl

@[simp] theorem State.clearSession_link (l : Link) : s.clearSession.link l = s.link l := by
  cases l <;> rw [State.clearSession, State.link, State.link]

@[simp] theorem State.resetLibrary_front (h : Head) : s.resetLibrary.front h = s.front h := by
  rw [State.resetLibrary, State.front, State.front]

@[simp] theorem State.resetLibrary_link (l : Link) : s.resetLibrary.link l = s.link l := by
  cases l <;> rw [State.resetLibrary, State.link, State.link]

@[simp] theorem State.resetLibrary_records : s.resetLibrary.records = s.records := by
  rw [State.resetLibrary]

@[simp] theorem State.closeBoard_front (h : Head) : s.closeBoard.front h = s.front h := by
  rw [State.front, State.closeBoard_fronts, State.front]

@[simp] theorem State.closeBoard_link (l : Link) : s.closeBoard.link l = s.link l := by
  cases l <;> simp [State.link]

theorem State.closeBoard_board (s : State) : s.closeBoard.board = Board.closed := rfl

theorem State.clearSession_board (s : State) : s.clearSession.board = s.board := by
  rw [State.clearSession]

theorem State.clearSession_records (s : State) : s.clearSession.records = [] := by
  rw [State.clearSession]

/-! ### The state in which the heads end: no waiting claims, the users cleared, no site -/

theorem State.unclaimed_front (s : State) (h : Head) : s.unclaimed.front h = s.front h := by
  rw [State.unclaimed, State.closeBoard_front, State.resetLibrary_front, State.front,
    State.dropAll_fronts, State.front]

theorem State.unclaimed_link (s : State) (l : Link) :
    s.unclaimed.link l = (s.dropAll none .supervisorReset s.queue).link l := by
  rw [State.unclaimed, State.closeBoard_link, State.resetLibrary_link]

theorem State.unclaimed_board (s : State) : s.unclaimed.board = Board.closed := by
  rw [State.unclaimed, State.closeBoard_board]

theorem unclaimed_headSame (out : h ∉ s.queue.map (·.head)) : HeadSame h s s.unclaimed :=
  (dropAll_headSame .supervisorReset out).trans ⟨s.unclaimed_monitor h,
    by rw [State.unclaimed_front, State.front, State.front, State.dropAll_fronts],
    s.unclaimed_link (.head h)⟩

/-- The state of a warm reset when the heads have ended. -/
def State.headsReset (s : State) : State := allHeads.foldl State.resetHead s.unclaimed

theorem State.warmReset_eq_clearSession (s : State) : s.warmReset = s.headsReset.clearSession :=
  s.warmReset_eq

theorem headsReset_headEnded (h : Head) :
    HeadEnded .supervisorReset .supervisorReset id h s.unclaimed s.headsReset :=
  (endsOne_foldl endsOne_resetHead allHeads nodup_allHeads s.unclaimed_queue).2.1 h (mem_allHeads h)

theorem headsReset_headEnded_of_out (out : h ∉ s.queue.map (·.head)) :
    HeadEnded .supervisorReset .supervisorReset id h s s.headsReset :=
  (headsReset_headEnded h).of_same (unclaimed_headSame out)

theorem headsReset_monitor_of_queued (queued : h ∈ s.queue.map (·.head)) :
    s.headsReset.monitor h = Monitor.idle ∧
      s.headsReset.link (.head h) = (s.dropAll none .supervisorReset s.queue).link (.head h) := by
  have idle : s.unclaimed.monitor h = Monitor.idle := by
    obtain ⟨e, mem, own⟩ := List.mem_map.1 queued
    rw [State.unclaimed_monitor, State.dropAll_monitor]
    exact if_pos (List.any_eq_true.2 ⟨e, mem, own ▸ beq_self_eq_true e.head⟩)
  obtain ⟨monitor, link⟩ := (headsReset_headEnded h).resting (by rw [idle]; rfl)
  exact ⟨monitor.trans idle, link.trans (s.unclaimed_link _)⟩

/-- The heads left in RETRACT or HALTED by a warm reset. -/
theorem warmReset_unacknowledged (law : ClaimLaw none s) (h : Head) :
    (s.warmReset.monitor h).state.unacknowledged =
      ((s.monitor h).state.inStroke || (s.monitor h).state.unacknowledged) := by
  rw [State.warmReset_eq_clearSession, State.clearSession_monitor]
  have slotless (m : Monitor) : ({ m with slot := false } : Monitor).state = m.state := rfl
  rw [slotless]
  by_cases queued : h ∈ s.queue.map (·.head)
  · rw [(headsReset_monitor_of_queued queued).1]
    obtain st | st := law.queued queued <;> rw [st] <;> rfl
  · exact (headsReset_headEnded_of_out queued).unacknowledged (fun _ => rfl) (law.heads h)

/-- What a warm reset leaves of a front end (R21). -/
theorem warmReset_front (law : ClaimLaw none s) (h : Head) :
    s.warmReset.front h = { s.front h with
      corners := (s.front h).corners.map fun c => { c with noiseRun := 0 }
      heldCount := 0
      tare := if (s.monitor h).state.inStroke then
          { (s.front h).tare with run := 0, state := .settling }
        else (s.front h).tare } := by
  rw [State.warmReset_eq_clearSession, State.clearSession_front]
  cases inStroke : (s.monitor h).state.inStroke with
  | true =>
    have out : h ∉ s.queue.map (·.head) := law.out_of_not_free fun free => by
      rw [free.quiet.2.1] at inStroke; cases inStroke
    obtain ⟨c, w, k, claim, copy, stroke, -⟩ := (law.heads h).exists_stroke inStroke
    rw [((headsReset_headEnded_of_out out).stroke c w k inStroke claim copy stroke).2.1]
    rfl
  | false =>
    have outside : (s.unclaimed.monitor h).state.inStroke = false := by
      rw [State.unclaimed_monitor, State.dropAll_monitor]
      split
      · rfl
      · exact inStroke
    rw [(headsReset_headEnded h).front outside, State.unclaimed_front]
    rfl

/-- The library after a warm reset (R41). -/
theorem TypeSlot.warmReset_of_steady {slot : TypeSlot} (steady : slot.state ≠ .draining) :
    slot.warmReset = { slot with users := 0 } := if_neg steady

theorem TypeSlot.warmReset_of_draining {slot : TypeSlot} (draining : slot.state = .draining) :
    slot.warmReset = slot.drained := if_pos draining

theorem warmReset_board (s : State) : s.warmReset.board = Board.closed := by
  rw [State.warmReset_eq_clearSession, State.clearSession_board, State.headsReset,
    State.resetHeads_board, State.unclaimed_board]

/-! ### The request (R175) -/

theorem warmResetAnswer_badLength {payload : List Byte} (s : State) (some_bytes : payload ≠ []) :
    warmResetAnswer payload s = s.turnDown .badLength :=
  if_pos (by simpa using some_bytes)

theorem warmResetAnswer_nil (s : State) : warmResetAnswer [] s = s.warmReset.answer .ok
    (u8 s.records.length ++ u8 (s.warmReset.monitors.toList.countP (·.state.unacknowledged))) :=
  if_neg (by simp)

theorem exec_warmReset_nil {tag : Byte} (takes : s.takes .cell = true) :
    exec (.warmReset tag []) s = .next (s.warmReset.withReply .cell 44 tag .ok
      (u8 s.records.length ++ u8 (s.warmReset.monitors.toList.countP (·.state.unacknowledged)))) := by
  refine congrArg Host.Outcome.next (State.request_cell (warmResetAnswer_stamps []) takes (by simp) (by simp)
    fun k => ?_)
  rw [warmResetAnswer_nil, State.withCell_warmReset, State.withCell_monitors, State.withCell_records,
    State.answer]

/-- A reply on the cell link leaves the links of the heads. -/
theorem State.withReply_cell_headLink (s : State) (kind tag : Byte) (st : Status) (bytes : List Byte)
    (h : Head) : (s.withReply .cell kind tag st bytes).link (.head h) = s.link (.head h) := rfl

/-- Settles O43: a warm reset ends every claim and stroke and clears every block of the session. -/
theorem warmResetEndsEverything : Obligations.WarmResetEndsEverything := by
  intro tag s takes
  refine ⟨fun payload some_bytes short => ?_, fun law library => ?_⟩
  · exact congrArg Host.Outcome.next (State.request_turnDown (warmResetAnswer_stamps payload) takes short
      (warmResetAnswer_badLength _ some_bytes))
  have claims := (siteLaw_iff.1 law).1
  have vacant := vacant_warmReset law
  have monitor (h : Head) : s.warmReset.monitor h = { s.headsReset.monitor h with slot := false } := by
    rw [State.warmReset_eq_clearSession, State.clearSession_monitor]
  have link (l : Link) : s.warmReset.link l = s.headsReset.link l := by
    rw [State.warmReset_eq_clearSession, State.clearSession_link]
  have ended {h : Head} (out : h ∉ s.queue.map (·.head)) :
      HeadEnded .supervisorReset .supervisorReset id h s s.headsReset := headsReset_headEnded_of_out out
  have out_of {h : Head} (granted : ¬ (s.monitor h).state.free) := claims.out_of_not_free granted
  refine ⟨_, exec_warmReset_nil takes, ?_⟩
  simp only [State.withReply_queue, State.withReply_records, State.withReply_site,
    State.withReply_holder, State.withReply_board, State.withReply_period, State.withReply_estop,
    State.withReply_clock, State.withReply_resetHeld, State.withReply_monitor, State.withReply_front,
    State.withReply_typeSlot, State.withReply_cell_headLink, monitor, link]
  refine ⟨vacant.queue, s.headsReset.clearSession_records, vacant.undefined, vacant.unheld,
    warmReset_board s, by simp, by simp, by simp, by simp, fun e mem => ?_, fun h idle => ?_,
    fun h c armed claim => ?_, fun h c w k inStroke claim copy stroke => ?_, fun h stayed => ?_,
    warmReset_front claims, fun i steady => ?_, fun i p draining pending => ?_, ?_⟩
  · obtain ⟨idle, told⟩ := headsReset_monitor_of_queued (List.mem_map_of_mem (f := (·.head)) mem)
    rw [idle, told]
    exact ⟨rfl, s.dropAll_link_of_mem (r := .supervisorReset) nofun claims.once mem⟩
  · have out : h ∉ s.queue.map (·.head) := fun queued => by
      have waits := (claims.waiting h nofun).2 queued
      rw [idle] at waits; cases waits
    obtain ⟨same, told⟩ := (ended out).resting (by rw [idle]; rfl)
    rw [same, (claims.heads h).eq_idle idle]
    exact ⟨rfl, told⟩
  · obtain ⟨same, told⟩ := (ended (out_of fun free => free.quiet.1 armed)).armed c armed claim
    rw [same]
    exact ⟨rfl, told⟩
  · have out : h ∉ s.queue.map (·.head) := out_of fun free => by
      rw [free.quiet.2.1] at inStroke; cases inStroke
    obtain ⟨same, -, told⟩ := (ended out).stroke c w k inStroke claim copy stroke
    rw [same]
    exact ⟨rfl, told⟩
  · have out : h ∉ s.queue.map (·.head) := out_of fun free => by
      obtain st | st := free <;> rw [st] at stayed <;> simp at stayed
    obtain ⟨same, told⟩ := (ended out).resting (by obtain st | st := stayed <;> rw [st] <;> rfl)
    rw [same]
    exact ⟨rfl, told⟩
  · rw [warmReset_typeSlot library, TypeSlot.warmReset_of_steady steady]
  · rw [warmReset_typeSlot library, TypeSlot.warmReset_of_draining draining]
    obtain ⟨sound, lost⟩ := TypeSlot.drained_of pending
    exact ⟨sound, fun damaged => by rw [lost damaged]; exact ⟨rfl, rfl, rfl, rfl⟩⟩
  · have count := PerHead.countP_congr (p := s.warmReset.monitors) (q := s.monitors)
      (f := (·.state.unacknowledged))
      (g := fun m => m.state.inStroke || m.state == .retract || m.state == .halted) fun h => by
        refine (warmReset_unacknowledged claims h).trans ?_
        change (_ || _) = ((s.monitor h).state.inStroke || (s.monitor h).state == .retract ||
          (s.monitor h).state == .halted)
        cases (s.monitor h).state <;> rfl
    rw [State.withReply_cellLink, State.withReply_cellLink, State.warmReset_cellLink, count]

end Sys2Proof.Machine
end

section
/-! UNLOAD (section 3.3): the site EMPTY, and the claims on it ended (obligation O25). -/

namespace Sys2Proof.Machine

variable {s t : State} {h : Head} {site : Fin 96} {e : SiteEntry}

theorem unloadAnswer_badLength {payload : List Byte} (s : State) (len : payload.length ≠ 1) :
    unloadAnswer payload s = s.turnDown .badLength := if_pos len

theorem unloadAnswer_byte (n : Byte) (s : State) :
    unloadAnswer [n] s = s.onOpenSite n.toNat s.unloadSite := rfl

theorem State.unloadSite_refused (full : ∀ e, s.site site = some e → e.state.unloadable = false) :
    s.unloadSite site = s.turnDown .siteState := by
  unfold State.unloadSite
  cases entry : s.site site with
  | none => rfl
  | some e => exact if_neg (by rw [full e entry]; exact Bool.false_ne_true)

theorem State.unloadSite_of (entry : s.site site = some e) (taken : e.state.unloadable = true) :
    s.unloadSite site =
      ((s.setSite site (some e.unload)).endSiteClaims site e.state.claimant).answer .ok
        (u8 site.val ++ u8 SiteState.empty.code ++ flagByte e.state.claimant.isSome) := by
  simp only [State.unloadSite, entry]
  exact if_pos taken

/-- UNLOAD of a site that is not EMPTY or PRESSING. -/
theorem exec_unload_of {n : Byte} (tag : Byte) (takes : s.takes .cell = true)
    (opened : s.board.state = .isOpen) (number : site.val = n.toNat) (entry : s.site site = some e)
    (taken : e.state.unloadable = true) : exec (.unload tag [n]) s =
      .next (((s.setSite site (some e.unload)).withReply .cell 38 tag .ok
        ([n, 1] ++ flagByte e.state.claimant.isSome)).endSiteClaims site e.state.claimant) := by
  refine congrArg Host.Outcome.next (State.request_of (st := .ok)
    (bytes := [n, 1] ++ flagByte e.state.claimant.isSome) (unloadAnswer_stamps _) takes (by simp) ?_)
  rw [unloadAnswer_byte, ← number, State.onOpenSite_of_open (by simpa using opened),
    State.unloadSite_of (by simpa using entry) taken, u8_toNat number, State.setSite_withReply]
  rfl

/-- The claims on a site without a claimant: those waiting for it. -/
theorem State.endSiteClaims_none (s : State) (site : Fin 96) : s.endSiteClaims site none =
    if s.waitingOnSite site ≠ [] then
      (s.dropAll none .siteChanged (s.waitingOnSite site)).pass none
    else s := by
  unfold State.endSiteClaims
  by_cases waits : s.waitingOnSite site = []
  · simp [waits]
  · simp [waits]

theorem State.endSiteClaims_some (s : State) (site : Fin 96) (h : Head) :
    s.endSiteClaims site (some h) = ((s.revoke h .siteChanged).dropAll none .siteChanged
      ((s.revoke h .siteChanged).waitingOnSite site)).pass none := rfl

/-- A site that UNLOAD has made EMPTY is not given back again (R57). -/
theorem State.returnSite_of_unheld {c : Claim} (claim : (s.monitor h).claim = some c)
    (entry : s.site c.site = some e) (unheld : e.state.unheld) : s.returnSite h = s := by
  rw [State.returnSite, claim]
  refine (State.changeSite_of_site entry _).trans ?_
  rw [SiteEntry.unclaim_of_not_claimed fun j g => (unheld j g).1, ← entry]
  simp [State.setSite, State.site]

/-- An armed claim that ends where its site is EMPTY already. -/
theorem State.revoke_of_unheld {c : Claim} {w : WorkingCopy} (claim : (s.monitor h).claim = some c)
    (copy : (s.monitor h).copy = some w) (entry : s.site c.site = some e) (unheld : e.state.unheld)
    {r : ClaimReason} (told : r ≠ .linkDown) : s.revoke h r =
      ((((s.freeZones h).releaseUser w.typeNo).state).setMonitor h Monitor.idle).offer (.head h)
        (eventFrame 67 (u8 c.site.val ++ u8 r.code)) := by
  have held : ((s.freeZones h).monitor h).copy = some w := by simpa using copy
  rw [State.revoke, claim]
  refine (if_neg told).trans ?_
  rw [State.endArmed, State.returnSite_of_unheld claim entry unheld, State.releaseUserOf, held]
  rfl

/-- Zones freed after a reply, or before it: the same state. -/
theorem State.freeZones_withReply (s : State) (kind tag : Byte) (st : Status) (bytes : List Byte)
    (h : Head) : (s.withReply .cell kind tag st bytes).freeZones h =
      (s.freeZones h).withReply .cell kind tag st bytes := by
  rw [s.withReply_cell, (s.freeZones h).withReply_cell, State.withCell_freeZones,
    State.withReply_cellLink, State.withReply_cellLink, State.freeZones_cellLink]

theorem State.freeZones_setSite (s : State) (site : Fin 96) (e : Option SiteEntry) (h : Head) :
    (s.setSite site e).freeZones h = { s with
      sites := s.sites.set site e
      zones := Vector.ofFn fun z => if s.holder z = some h then none else s.holder z } := by
  rw [State.freeZones]
  simp only [State.setSite_holder]
  rfl

/-- Settles O25: UNLOAD makes the site EMPTY, and ends the claims on it. -/
theorem unloadMakesTheSiteEmpty : Obligations.UnloadMakesTheSiteEmpty := by
  refine ⟨fun tag s takes => ?_, fun tag n site s takes number opened => ?_⟩
  · have refused {payload : List Byte} {st : Status} := next_turnDown (kind := 38) (tag := tag)
      (st := st) (unloadAnswer_stamps payload) takes (payload := payload)
    refine ⟨fun payload len short => refused short (unloadAnswer_badLength _ len),
      fun n => ⟨fun closed => ?_, fun aborting => ?_, fun opened bad => ?_⟩⟩
    · exact refused (by simp) (State.onOpenSite_noBoard (by simpa using closed) ..)
    · exact refused (by simp) (State.onOpenSite_aborting (by simpa using aborting) ..)
    · exact refused (by simp) (State.onOpenSite_badSite (by simpa using opened) bad _)
  · intro emptied waiting
    refine ⟨fun kept => ?_, fun e entry state => ?_, fun e h g c w entry held claim own copy => ?_⟩
    · refine next_turnDown (unloadAnswer_stamps _) takes (by simp) ?_
      rw [unloadAnswer_byte, ← number, State.onOpenSite_of_open (by simpa using opened)]
      refine State.unloadSite_refused fun e entry => ?_
      obtain empty | ⟨h, g, pressing⟩ := kept e (by simpa using entry)
      · rw [empty]; rfl
      · rw [pressing]; rfl
    · have taken : e.state.unloadable = true ∧ e.state.claimant = none := by
        obtain st | ⟨d, st⟩ | st | st := state <;> rw [st] <;> exact ⟨rfl, rfl⟩
      intro s'
      have unloaded := exec_unload_of tag takes opened number entry taken.1
      rw [taken.2, State.endSiteClaims_none] at unloaded
      exact ⟨fun none_waits => unloaded.trans (congrArg _ (if_neg (not_not.2 none_waits))),
        fun waits => unloaded.trans (congrArg _ (if_pos waits))⟩
    · intro released revoked
      subst own
      have unloaded := exec_unload_of tag takes opened number entry (by rw [held]; rfl)
      rw [held] at unloaded
      refine unloaded.trans ?_
      rw [SiteState.claimant, State.endSiteClaims_some]
      have same := State.revoke_of_unheld (s := (s.setSite c.site (some e.unload)).withReply .cell 38 tag
        .ok [n, 1, 1]) (h := h) (c := c) (w := w) (e := e.unload) (r := .siteChanged)
        (by simpa using claim) (by simpa using copy) (by simp) (fun _ _ => ⟨nofun, nofun⟩) nofun
      rw [u8_toNat number, State.freeZones_withReply, State.freeZones_setSite] at same
      exact congrArg (fun u : State => Host.Outcome.next ((u.dropAll none .siteChanged
        (u.waitingOnSite c.site)).pass none)) same

end Sys2Proof.Machine
end

section
/-! Claims given up: RELEASE, the expiry of an armed claim, and a break of the head's link (sections 4.6,
4.7, 9.2; obligations O31 and O42). -/

namespace Sys2Proof.Machine

variable {s t u : State} {h : Head}

/-! ### The end of an armed claim (R57, R77) -/

/-- An armed claim that ends: the site at its state at grant, the zones free, the user released. -/
theorem State.endArmed_of_claimed {c : Claim} {w : WorkingCopy} {e : SiteEntry} {g : GrantFrom}
    (claim : (s.monitor h).claim = some c) (copy : (s.monitor h).copy = some w)
    (site : s.site c.site = some e) (held : e.state = .claimed h g) :
    s.endArmed h = ((({ s with
      sites := s.sites.set c.site (some { e with state := g.toState })
      zones := Vector.ofFn fun z => if s.holder z = some h then none else s.holder z
      }).releaseUser w.typeNo).state).setMonitor h Monitor.idle := by
  have unclaimed : e.unclaim = { e with state := g.toState } := by rw [SiteEntry.unclaim, held]
  have changed : s.returnSite h = s.setSite c.site (some { e with state := g.toState }) := by
    rw [State.returnSite, claim]
    exact (State.changeSite_of_site site _).trans (by rw [unclaimed])
  have own : (((s.returnSite h).freeZones h).monitor h).copy = some w := by simpa using copy
  rw [State.endArmed, State.releaseUserOf, own, changed, State.freeZones_setSite]
  rfl

/-! ### A break of a link (R82, R106, R143, R167) -/

theorem exec_linkBreak_of_up {l : Link} (up : (s.link l).up = true) :
    exec (.linkBreak l) s = .next (s.breakLink l) :=
  congrArg Host.Outcome.next (if_pos up)

theorem State.breakLink_head (s : State) (h : Head) :
    s.breakLink (.head h) = (s.dropLink (.head h)).headLinkLost h := rfl

theorem State.headLinkLost_waiting {e : QueueEntry} (waiting : (s.monitor h).state = .waiting)
    (mem : e ∈ s.queue) (own : e.head = h) :
    s.headLinkLost h = ((s.leaveQueue h).toIdle h).pass none := by
  obtain ⟨e', entry⟩ : ∃ e', s.entryOf h = some e' :=
    Option.isSome_iff_exists.1 (List.find?_isSome.2 ⟨e, mem, beq_iff_eq.2 own⟩)
  have own' : e'.head = h := by simpa using List.find?_some entry
  simp only [State.headLinkLost, waiting, entry]
  rw [State.dropEntry_linkDown, own']

theorem State.headLinkLost_armed {c : Claim} (armed : (s.monitor h).state = .armed)
    (claim : (s.monitor h).claim = some c) : s.headLinkLost h = (s.endArmed h).pass none := by
  simp [State.headLinkLost, armed, State.revoke, claim]

theorem State.headLinkLost_other (unarmed : (s.monitor h).state ≠ .armed)
    (not_waiting : (s.monitor h).state ≠ .waiting) :
    s.headLinkLost h = (s.strike h .linkDown).run := by
  unfold State.headLinkLost
  split
  case h_1 waiting => exact absurd waiting not_waiting
  case h_2 armed => exact absurd armed unarmed
  case h_3 => rfl

theorem State.strike_of_inStroke (inStroke : (s.monitor h).state.inStroke = true) (c : Cause) :
    s.strike h c = s.abortStroke h c [] := if_pos inStroke

theorem State.strike_of_not_inStroke (outside : (s.monitor h).state.inStroke = false) (c : Cause) :
    (s.strike h c).run = s.setMonitor h ((s.monitor h).joinCauses [c]) := by
  rw [State.strike, if_neg (by rw [outside]; exact Bool.false_ne_true)]
  rfl

/-- Settles O42: by the state of the head whose link breaks. -/
theorem linkBreakEndsTheSession : Obligations.LinkBreakEndsTheSession := by
  intro l s cut
  refine ⟨fun down => ?_, fun up cell => ?_, fun h up head => ⟨fun quiet => ?_, fun e mem waiting own => ?_,
    fun c w e g armed claim copy site held => ?_, fun inStroke => ?_,
    fun k a halted stroke abort => ?_⟩⟩
  · exact congrArg Host.Outcome.next (if_neg (by rw [down]; exact Bool.false_ne_true))
  · subst cell
    exact exec_linkBreak_of_up up
  all_goals
    subst head
    have broken := (exec_linkBreak_of_up up).trans (congrArg Host.Outcome.next (s.breakLink_head h))
    have monitor : (s.dropLink (.head h)).monitor h = s.monitor h := by simp [State.dropLink]
  · have outside : (s.monitor h).state.inStroke = false := by obtain st | st := quiet <;> rw [st] <;> rfl
    have other : (s.monitor h).state ≠ .armed ∧ (s.monitor h).state ≠ .waiting ∧
        (s.monitor h).state ≠ .halted := by obtain st | st := quiet <;> rw [st] <;> simp
    obtain ⟨unarmed, not_waiting, not_halted⟩ := other
    rw [broken, State.headLinkLost_other (by rwa [monitor]) (by rwa [monitor]),
      State.strike_of_not_inStroke (by rwa [monitor]), monitor,
      Monitor.joinCauses_of_not_halted not_halted, ← monitor, State.setMonitor_self]
    rfl
  · rw [broken, State.headLinkLost_waiting (by rwa [monitor]) (by simpa [State.dropLink] using mem) own]
    rfl
  · rw [broken, State.headLinkLost_armed (by rwa [monitor]) (by rwa [monitor]),
      State.endArmed_of_claimed (by rwa [monitor]) (by rwa [monitor]) (by simpa [State.dropLink] using site)
        held]
    cases g <;> rfl
  · have unarmed : (s.monitor h).state ≠ .armed := fun st => by rw [st] at inStroke; cases inStroke
    have not_waiting : (s.monitor h).state ≠ .waiting := fun st => by rw [st] at inStroke; cases inStroke
    rw [broken, State.headLinkLost_other (by rwa [monitor]) (by rwa [monitor]),
      State.strike_of_inStroke (by rwa [monitor])]
    rfl
  · have outside : (s.monitor h).state.inStroke = false := by rw [halted]; rfl
    obtain ⟨further, joined, members⟩ := Monitor.joinCauses_of_halted halted stroke abort .linkDown
    refine ⟨further, ?_, fun d => (members d).trans (or_congr Iff.rfl (and_congr_right fun _ => ne_comm))⟩
    rw [broken, State.headLinkLost_other (by rw [monitor, halted]; nofun) (by rw [monitor, halted]; nofun),
      State.strike_of_not_inStroke (by rwa [monitor]), monitor, joined]
    rfl

/-! ### RELEASE (R79) -/

theorem releaseAnswer_badLength {payload : List Byte} (h : Head) (s : State) (some_bytes : payload ≠ []) :
    releaseAnswer h payload s = s.turnDown .badLength :=
  if_pos (by simpa using some_bytes)

theorem releaseAnswer_of_waiting (waiting : (s.monitor h).state = .waiting) :
    releaseAnswer h [] s = (((s.leaveQueue h).toIdle h).pass none).answer .ok [1] := by
  rw [releaseAnswer, waiting]
  exact if_neg (by simp)

theorem releaseAnswer_of_armed (armed : (s.monitor h).state = .armed) :
    releaseAnswer h [] s = ((s.endArmed h).pass none).answer .ok [2] := by
  rw [releaseAnswer, armed]
  exact if_neg (by simp)

theorem releaseAnswer_of_idle (idle : (s.monitor h).state = .idle) :
    releaseAnswer h [] s = s.turnDown .claimLost := by
  rw [releaseAnswer, idle]
  exact if_neg (by simp)

theorem releaseAnswer_of_granted (granted : (s.monitor h).state.inStroke = true ∨
    (s.monitor h).state = .retract ∨ (s.monitor h).state = .halted) :
    releaseAnswer h [] s = s.turnDown .headState := by
  unfold releaseAnswer
  cases st : (s.monitor h).state <;> rw [st] at granted
  case idle => simp [HeadState.inStroke] at granted
  case waiting => simp [HeadState.inStroke] at granted
  case armed => simp [HeadState.inStroke] at granted
  all_goals exact if_neg (by simp)

/-- RELEASE turned down. -/
theorem exec_release_turnDown {payload : List Byte} {st : Status} {tag : Byte}
    (takes : s.takes (.head h) = true) (short : payload.length ≤ 250)
    (refused : releaseAnswer h payload (s.withReply (.head h) 18 tag st []) =
      (s.withReply (.head h) 18 tag st []).turnDown st) :
    exec (.release h tag payload) s = .next (s.withReply (.head h) 18 tag st []) :=
  congrArg Host.Outcome.next (State.request_turnDown (releaseAnswer_stamps h payload) takes short refused)

/-- RELEASE with its effects. -/
theorem exec_release_of {bytes : List Byte} {tag : Byte} (takes : s.takes (.head h) = true)
    (answer : releaseAnswer h [] (s.withReply (.head h) 18 tag .ok bytes) = t.answer .ok bytes) :
    exec (.release h tag []) s = .next t :=
  congrArg Host.Outcome.next (State.request_of (releaseAnswer_stamps h []) takes (by simp) answer)

/-! ### The expiry (R76, R77) -/

theorem exec_holdTimerExpiry (h : Head) (event : Nat) (s : State) :
    exec (.holdTimerExpiry h event) s = .next ((s.advance (event * 10000)).meetTimer h event) := rfl

theorem State.dueEvent_of_armed {granted event : Nat} (armed : (s.monitor h).state = .armed)
    (grant : (s.monitor h).grantTime = some granted)
    (due : granted + s.board.holdTime * 100000 ≤ event * 10000)
    (soon : event * 10000 < granted + s.board.holdTime * 100000 + 10000) :
    s.dueEvent h = some event :=
  (State.dueEvent_eq_some h event).2 ⟨armed, granted, grant,
    ((s.expiryEvent_eq_iff granted event).2 ⟨due, soon⟩).symm⟩

theorem State.expiresNoSooner.mono {time before : Nat} (kept : s.expiresNoSooner h time)
    (le : before ≤ time) : s.expiresNoSooner h before :=
  fun granted event armed grant due => le.trans (kept granted event armed grant due)

theorem State.expiresNoSooner.le_due {time n : Nat} (kept : s.expiresNoSooner h time)
    (due : s.dueEvent h = some n) : time ≤ eventTime n := by
  obtain ⟨armed, granted, grant, rfl⟩ := (State.dueEvent_eq_some h n).1 due
  exact kept granted _ armed grant (s.expiryEvent_bounds granted).1

theorem State.meetTimer_of_due {event : Nat} (due : s.dueEvent h = some event) :
    s.meetTimer h event = s.expire h := if_pos due

theorem State.meetTimer_of_not_due {event : Nat} (other : s.dueEvent h ≠ some event) :
    s.meetTimer h event = s := if_neg other

theorem State.expire_of_claim {c : Claim} (claim : (s.monitor h).claim = some c) :
    s.expire h = ((s.endArmed h).eventExpired h c.site).pass none := by
  rw [State.expire, claim]

/-- Where no other claim is due before an event, nor the own one, time comes to the event at once. -/
theorem advance_of_own_later {event n : Nat} (due : s.dueEvent h = some n) (le : event ≤ n)
    (others : ∀ h', h' ≠ h → s.expiresNoSooner h' (event * 10000)) :
    s.advance (event * 10000) = s.notBefore (event * 10000) := by
  refine State.advance_of_none_due fun h' m due' => ?_
  by_cases own : h' = h
  · subst own
    cases due.symm.trans due'
    exact Nat.mul_le_mul_right _ le
  · exact (others h' own).le_due due'

/-- The state once the claim due first has expired at its own event. -/
theorem exec_holdTimerExpiry_of_first {event : Nat} (due : s.dueEvent h = some event)
    (others : ∀ h', h' ≠ h → s.expiresNoSooner h' (event * 10000)) :
    exec (.holdTimerExpiry h event) s = .next ((s.notBefore (event * 10000)).expire h) := by
  rw [exec_holdTimerExpiry, advance_of_own_later due (Nat.le_refl _) others]
  exact congrArg Host.Outcome.next (State.meetTimer_of_due due)

/-- Time that passes the event at which the first claim is due: the claim has expired there. -/
theorem advance_of_first {event time : Nat} (due : s.dueEvent h = some event)
    (others : ∀ h', h' ≠ h → s.expiresNoSooner h' (event * 10000 + 1)) (later : event * 10000 < time) :
    s.advance time = ((s.notBefore (event * 10000)).expire h).advance time := by
  refine State.advance_of_due (d := ⟨h, event⟩) (State.nextDue_of_first due fun h' n other due' => ?_) later
  have := (others h' other).le_due due'
  simp only [eventTime, Config.timebase] at this
  omega

/-! ### The transmit line while claims end (R170) -/

/-- The line of a link is as it was. -/
structure LineKept (l : Link) (s t : State) : Prop where
  tx : (t.link l).tx = (s.link l).tx
  since : (t.link l).idleSince = (s.link l).idleSince

namespace LineKept

variable {l : Link}

protected theorem trans (first : LineKept l s t) (second : LineKept l t u) : LineKept l s u :=
  ⟨second.tx.trans first.tx, second.since.trans first.since⟩

theorem of_same (same : t.link l = s.link l) : LineKept l s t := ⟨by rw [same], by rw [same]⟩

protected theorem offer (l' : Link) (f : OutFrame) : LineKept l s (s.offer l' f) := by
  by_cases own : l' = l
  · subst own
    obtain ⟨-, offered⟩ | ⟨-, -, offered⟩ | ⟨-, -, offered⟩ := (s.link l').offer_cases f <;>
      exact ⟨by simp [offered], by simp [offered]⟩
  · exact of_same (by simp [Ne.symm own])

protected theorem event (h : Head) (kind : Byte) (fields : List Byte) :
    LineKept l s (s.event h kind fields) := .offer (.head h) _

protected theorem dropEntry (a : Option Head) (r : ClaimReason) (e : QueueEntry) :
    LineKept l s (s.dropEntry a r e) := by
  have left : LineKept l s ((s.leaveQueue e.head).setMonitor e.head .idle) := of_same (by simp)
  obtain ⟨-, dropped⟩ | ⟨-, dropped⟩ := s.dropEntry_cases a r e <;> rw [dropped]
  · exact left
  · exact left.trans (.offer _ _)

protected theorem dropAll (a : Option Head) (r : ClaimReason) (es : List QueueEntry) :
    LineKept l s (s.dropAll a r es) := by
  induction es generalizing s with
  | nil => exact of_same rfl
  | cons e es ih => exact (LineKept.dropEntry a r e).trans ih

protected theorem grant (e : QueueEntry) (i : Fin 48) (r : TypeRecord) :
    LineKept l s (s.grant e i r) := by
  unfold State.grant State.eventGranted
  refine LineKept.trans (of_same ?_) (LineKept.event e.head _ _)
  simp

protected theorem passEntry (a : Option Head) (e : QueueEntry) : LineKept l s (s.passEntry a e) := by
  obtain ⟨-, h⟩ | ⟨-, -, h⟩ | ⟨i, -, -, -, -, ⟨r, -, h⟩ | ⟨-, h⟩⟩ := s.passEntry_cases a e <;> rw [h]
  · exact .dropEntry a _ e
  · exact of_same rfl
  · exact ((LineKept.grant e i r).trans (.dropAll a _ _)).trans (of_same (State.raiseBypass_link ..))
  · exact LineKept.trans (of_same (State.setType_link ..)) (.dropAll a _ _)

protected theorem pass (a : Option Head) : LineKept l s (s.pass a) :=
  State.pass_induct a (p := LineKept l s) (fun _ e _ kept => kept.trans (.passEntry a e)) (of_same rfl)

protected theorem endArmed (h : Head) : LineKept l s (s.endArmed h) := by
  have before : LineKept l s ((s.returnSite h).freeZones h) := of_same (by simp)
  unfold State.endArmed State.releaseUserOf
  split
  case h_1 w _ =>
    have released : LineKept l ((s.returnSite h).freeZones h)
        (((s.returnSite h).freeZones h).releaseUser w.typeNo).state := by
      obtain same | same := ((s.returnSite h).freeZones h).releaseUser_eq w.typeNo <;> rw [same]
      · exact of_same (by simp)
      · exact LineKept.trans (of_same (by simp)) (.dropAll none _ _)
    exact (before.trans released).trans (of_same (by simp))
  case h_2 => exact before.trans (of_same (by simp))

protected theorem expire (h : Head) : LineKept l s (s.expire h) := by
  obtain ⟨c, -, expired⟩ | ⟨-, expired⟩ := s.expire_cases h <;> rw [expired]
  · exact ((LineKept.endArmed h).trans (.event h _ _)).trans (.pass none)
  · exact (LineKept.endArmed h).trans (.pass none)

end LineKept

/-- An expiry takes no frame from a link. -/
theorem State.holds_expire {l : Link} {i : Nat} (h : Head) (waits : s.holds l i) :
    (s.expire h).holds l i := by
  obtain ⟨c, -, expired⟩ | ⟨-, expired⟩ := s.expire_cases h <;> rw [expired]
  · exact State.holds_pass _ (State.holds_event _ _ _ (State.holds_endArmed h waits))
  · exact State.holds_pass _ (State.holds_endArmed h waits)

/-- A link with a frame waiting starts its transmission in the state of its time. -/
theorem State.startFrame_of {l : Link} (free : (s.link l).tx = none) (waits : s.holds l 0) :
    s.startFrame l = (s.advance ((s.link l).idleSince + 40)).beginFrame l := by
  obtain ⟨f, rest, out⟩ := List.exists_cons_of_length_pos waits
  unfold State.startFrame
  simp only [free, out]
  rfl

theorem State.endFrame_of {l : Link} {x : TxFrame} (sending : (s.link l).tx = some x) :
    s.endFrame l = (s.advance (x.since + 10 * x.bytes.length)).freeLine l := by
  have time : x.since + x.bytes.length * Config.charTime = x.since + 10 * x.bytes.length := by
    simp only [Config.charTime]; omega
  rw [State.endFrame, sending]
  simp only
  rw [time]

/-- Settles O31: by the state of the head, and by the first claim due. -/
theorem armedClaimsAreGivenUp : Obligations.ArmedClaimsAreGivenUp := by
  refine ⟨fun h tag s takes => ⟨fun payload some_bytes short => ?_, fun idle => ?_, fun granted => ?_,
      fun waiting => ?_⟩,
    fun h s => ⟨fun c w e g granted armed claim copy grant site held => ?_, fun unarmed event quiet => ?_⟩,
    fun h granted event s t armed grant due soon others expired => ?_⟩
  · exact exec_release_turnDown takes short (releaseAnswer_badLength h _ some_bytes)
  · exact exec_release_turnDown takes (by simp) (releaseAnswer_of_idle (by simpa using idle))
  · exact exec_release_turnDown takes (by simp) (releaseAnswer_of_granted (by simpa using granted))
  · exact exec_release_of (bytes := [1]) takes (releaseAnswer_of_waiting (by simpa using waiting))
  · intro ended
    have given (s' : State) (monitor : s'.monitor h = s.monitor h) (sites : s'.sites = s.sites)
        (zones : s'.zones = s.zones) : s'.endArmed h = ended s' := by
      have holder : s'.holder = s.holder := by
        funext z
        rw [State.holder, zones, State.holder]
      have site' : s'.site c.site = some e := by rw [State.site, sites]; exact site
      rw [State.endArmed_of_claimed (by rwa [monitor]) (by rwa [monitor]) site' held, holder, sites]
      cases g <;> rfl
    refine ⟨fun tag takes => ?_, fun event others => ⟨fun due soon => ?_, fun early => ?_⟩⟩
    · refine exec_release_of (bytes := [2]) takes ((releaseAnswer_of_armed (by simpa using armed)).trans ?_)
      rw [given _ (by simp) (by simp) (by simp)]
    · rw [exec_holdTimerExpiry_of_first (State.dueEvent_of_armed armed grant due soon) others,
        State.expire_of_claim (s := s.notBefore (event * 10000)) claim,
        given (s.notBefore (event * 10000)) rfl rfl rfl]
      rfl
    · have own : s.dueEvent h = some (s.expiryEvent granted) :=
        (State.dueEvent_eq_some h _).2 ⟨armed, granted, grant, rfl⟩
      have later : event * 10000 < s.expiryEvent granted * 10000 :=
        early.trans_le (s.expiryEvent_bounds granted).1
      rw [exec_holdTimerExpiry, advance_of_own_later own (by omega) others, State.meetTimer_of_not_due]
      · rfl
      · rw [State.dueEvent_notBefore, own]
        exact fun same => absurd (Option.some.inj same) (by omega)
  · rw [exec_holdTimerExpiry, quiet.advance, State.meetTimer_of_not_due]
    · rfl
    · rw [State.dueEvent_notBefore, State.dueEvent_of_not_armed unarmed]
      exact nofun
  · have first := State.dueEvent_of_armed armed grant due soon
    rw [exec_holdTimerExpiry_of_first first fun h' other => (others h' other).mono (by omega)] at expired
    cases expired
    have line (l : Link) : LineKept l s ((s.notBefore (event * 10000)).expire h) :=
      LineKept.trans (.of_same (by simp)) (.expire h)
    refine ⟨fun h' later after => ?_, fun empty passed => ?_, fun l f rest free out passed => ?_,
      fun l x sending passed => ?_⟩
    · rw [exec_holdTimerExpiry, exec_holdTimerExpiry, advance_of_first first others (by omega)]
    · have clock : max s.clock (event * 10000) = s.clock := Nat.max_eq_left passed
      have tick (u : State) (none_waits : u.pending = []) : step u = .next (u.advance (u.clock + 1)) := by
        rw [step, none_waits]
        rfl
      rw [tick s empty, tick _ (by simpa using empty), advance_of_first first others (by omega),
        State.expire_clock]
      exact congrArg (fun time => Host.Outcome.next (State.advance _ (time + 1))) clock.symm
    · have waits : s.holds l 0 := by rw [State.holds, out]; exact Nat.succ_pos _
      have waits' : ((s.notBefore (event * 10000)).expire h).holds l 0 :=
        State.holds_expire h waits
      change Host.Outcome.next (s.startFrame l) = Host.Outcome.next (State.startFrame _ l)
      rw [State.startFrame_of free waits, State.startFrame_of ((line l).tx.trans free) waits',
        (line l).since, advance_of_first first others (by omega)]
    · change Host.Outcome.next (s.endFrame l) = Host.Outcome.next (State.endFrame _ l)
      rw [State.endFrame_of sending, State.endFrame_of (x := x) ((line l).tx.trans sending),
        advance_of_first first others (by omega)]

end Sys2Proof.Machine
end

section
/-! The pass of the claim queue, one entry at a time (section 4.4): what it drops, leaves, grants and finds
BROKEN. -/

namespace Sys2Proof.Machine

variable {s t : State} {h : Head} {a : Option Head}

/-! ### Grantability (R69) -/

/-- A site meets the requirement of a claim's kind (R55). -/
def Claim.requires (c : Claim) (x : SiteEntry) : Prop :=
  c.restrike = false ∧ x.state = .loaded ∨
    c.restrike = true ∧ x.state = .rejected ∧ x.last = some (.abort .depthLimit) ∧ x.attempts < 3

theorem State.meets_of_requires {c : Claim} {x : SiteEntry} (site : s.site c.site = some x)
    (required : c.requires x) : s.meets c = true := (s.meets_iff c).2 ⟨x, site, required⟩

theorem State.not_meets {c : Claim} (lost : ∀ x, s.site c.site = some x → ¬ c.requires x) :
    s.meets c = false :=
  eq_false_of_ne_true fun met => by
    obtain ⟨x, site, required⟩ := (s.meets_iff c).1 met
    exact lost x site required

theorem State.keepOut_of_site {n : Fin 96} {x : SiteEntry} (site : s.site n = some x) :
    s.keepOut n = x.keepOut := by
  rw [State.keepOut, site]

theorem mem_keepOut_iff (s : State) (n : Fin 96) (z : Fin 32) :
    z ∈ s.keepOut n ↔ ∃ x, s.site n = some x ∧ z ∈ x.keepOut := by
  unfold State.keepOut
  cases s.site n <;> simp

theorem shareZone_iff (p q : List (Fin 32)) : shareZone p q = true ↔ ∃ z ∈ p, z ∈ q := by
  simp [shareZone]

theorem State.zonesFree_iff (s : State) (n : Fin 96) :
    s.zonesFree n = true ↔ ∀ z ∈ s.keepOut n, s.holder z = none := by
  simp [State.zonesFree]

theorem State.slotFree_iff (s : State) : s.slotFree = true ↔ s.records.length + s.reserved < 64 :=
  decide_eq_true_iff

/-- An older entry at the bypass limit shares a zone (R69, condition 5). -/
theorem State.blocked_iff (s : State) (e : QueueEntry) : s.blocked e = true ↔
    ∃ o ∈ s.olderThan e.head, o.bypass = s.board.bypassLimit ∧
      ∃ z ∈ s.keepOut o.claim.site, z ∈ s.keepOut e.claim.site := by
  simp only [State.blocked, List.any_eq_true, Bool.and_eq_true, beq_iff_eq, shareZone_iff]

/-- A waiting entry on a defined site is grantable (R69). -/
theorem State.grantable_of_site {e : QueueEntry} {x : SiteEntry}
    (site : s.site e.claim.site = some x) (required : e.claim.requires x) :
    s.grantable e = true ↔ (s.typeSlot x.typeNo).state = .ready ∧
      (∀ z ∈ x.keepOut, s.holder z = none) ∧ s.records.length + s.reserved < 64 ∧
      ∀ o ∈ s.olderThan e.head, o.bypass = s.board.bypassLimit →
        ∀ z ∈ s.keepOut o.claim.site, z ∉ x.keepOut := by
  have unblocked : s.blocked e = false ↔ ∀ o ∈ s.olderThan e.head, o.bypass = s.board.bypassLimit →
      ∀ z ∈ s.keepOut o.claim.site, z ∉ x.keepOut := by
    rw [← Bool.not_eq_true, State.blocked_iff, State.keepOut_of_site site]
    simp only [not_exists, not_and]
  rw [State.grantable_iff, State.typeStateAt_of_site site, State.zonesFree_iff, State.slotFree_iff,
    State.keepOut_of_site site, unblocked, Option.some_inj]
  exact and_iff_right (State.meets_of_requires site required)

/-! ### The grant (R73) -/

/-- What a grant on a site leaves, but for the GRANTED event. -/
def State.granted (s : State) (h : Head) (c : Claim) (x : SiteEntry) (r : StoredRecord) : State :=
  { s with
    library := s.library.set x.typeNo { s.typeSlot x.typeNo with
      users := (s.typeSlot x.typeNo).users + 1
      active := some { r with flips := [] }
      faults := min ((s.typeSlot x.typeNo).faults + r.flips.length) 255 }
    zones := Vector.ofFn fun z => if z ∈ x.keepOut then some h else s.holder z
    sites := s.sites.set c.site (some { x with
      state := .claimed h (if c.restrike then .rejected else .loaded) })
    queue := s.queue.filter fun q => !(q.head == h)
    monitors := s.monitors.set h
      { state := .armed, claim := some c
        grantTime := some s.clock, slot := true
        copy := some { typeNo := x.typeNo, fields := r.fields }
        permit := false, stroke := none } }

/-- The GRANTED event of a claim (R73). -/
def State.grantedFrame (s : State) (c : Claim) (x : SiteEntry) (r : StoredRecord) : OutFrame :=
  eventFrame 64 (u8 c.site.val ++ u8 x.typeNo.val ++ u32 r.fields.partCode.toNat
    ++ flagByte c.restrike ++ u8 s.board.holdTime)

theorem Claim.requires.asGrant {c : Claim} {x : SiteEntry} (required : c.requires x) :
    x.state.asGrant = if c.restrike then .rejected else .loaded := by
  obtain ⟨kind, loaded⟩ | ⟨kind, rejected, -⟩ := required
  · rw [kind, loaded]; rfl
  · rw [kind, rejected]; rfl

theorem State.takeZones_eq (s : State) (h : Head) (zs : List (Fin 32)) : s.takeZones h zs =
    { s with zones := Vector.ofFn fun z => if z ∈ zs then some h else s.holder z } := by
  simp only [State.takeZones, List.contains_iff_mem]

/-- A grant whose read gave the fields of a sound record (R73). -/
theorem State.grant_of_site {e : QueueEntry} {x : SiteEntry} {r : StoredRecord}
    (site : s.site e.claim.site = some x) (required : e.claim.requires x)
    (active : (s.typeSlot x.typeNo).active = some r) (sound : r.sound) :
    s.grant e x.typeNo r.fields =
      (s.granted e.head e.claim x r).offer (.head e.head) (s.grantedFrame e.claim x r) := by
  have readable := r.readable_iff_sound.2 sound
  have claimed : x.claimFor e.head =
      { x with state := .claimed e.head (if e.claim.restrike then .rejected else .loaded) } := by
    rw [SiteEntry.claimFor, required.asGrant]
  have taken (slot : TypeSlot) :
      (s.setType x.typeNo slot).takeZones e.head ((s.setType x.typeNo slot).keepOut e.claim.site) =
        { s.setType x.typeNo slot with
          zones := Vector.ofFn fun z => if z ∈ x.keepOut then some e.head else s.holder z } := by
    rw [State.takeZones_eq, State.keepOut_of_site (x := x) (by simpa using site)]
    simp only [State.setType_holder]
  unfold State.grant
  simp only [TypeSlot.reread_of active, r.corrected_of_readable readable,
    r.correctable_of_readable readable, taken]
  rw [State.changeSite_of_site (e := x) (by simpa [State.site] using site), claimed]
  rfl

/-! ### One entry of the pass (R70) -/

/-- A drop, as the operations it is made of (R80). -/
theorem State.dropEntry_eq {r : ClaimReason} (told : r ≠ .linkDown) (s : State) (a : Option Head)
    (d : QueueEntry) : s.dropEntry a r d =
      if a = some d.head then (s.leaveQueue d.head).setMonitor d.head Monitor.idle
      else ((s.leaveQueue d.head).setMonitor d.head Monitor.idle).offer (.head d.head)
        (eventFrame 65 (u8 d.claim.site.val ++ u8 r.code)) := by
  unfold State.dropEntry
  simp only [told, false_or]
  rfl

theorem State.passEntry_of_lost {e : QueueEntry} (lost : s.meets e.claim = false) :
    s.passEntry a e = s.dropEntry a .siteChanged e := by
  simp [State.passEntry, lost]

theorem State.passEntry_of_not_grantable {e : QueueEntry} (met : s.meets e.claim = true)
    (not_yet : s.grantable e = false) : s.passEntry a e = s := by
  simp [State.passEntry, met, not_yet]

theorem State.passEntry_of_grantable {e : QueueEntry} {x : SiteEntry} (met : s.meets e.claim = true)
    (grantable : s.grantable e = true) (site : s.site e.claim.site = some x) :
    s.passEntry a e = s.tryGrant a e x.typeNo := by
  simp [State.passEntry, met, grantable, State.typeAt, site]

/-- The entry granted, with the drops and the counts that follow (R70, R73). -/
theorem State.passEntry_granted {e : QueueEntry} {x : SiteEntry} {r : StoredRecord}
    (site : s.site e.claim.site = some x) (required : e.claim.requires x)
    (grantable : s.grantable e = true) (active : (s.typeSlot x.typeNo).active = some r)
    (sound : r.sound) : s.passEntry a e =
      ((s.granted e.head e.claim x r).offer (.head e.head) (s.grantedFrame e.claim x r)).afterGrant a
        (s.olderThan e.head) e.claim.site := by
  rw [State.passEntry_of_grantable (State.meets_of_requires site required) grantable site,
    State.tryGrant, TypeSlot.read_of_readable active (r.readable_iff_sound.2 sound)]
  simp only
  rw [State.grant_of_site site required active sound]

/-- The read of the entry's type fails (R74). -/
theorem State.passEntry_broken {e : QueueEntry} {x : SiteEntry} {r : StoredRecord}
    (site : s.site e.claim.site = some x) (required : e.claim.requires x)
    (grantable : s.grantable e = true) (active : (s.typeSlot x.typeNo).active = some r)
    (damaged : ¬ r.sound) : s.passEntry a e =
      (s.setType x.typeNo { s.typeSlot x.typeNo with
        state := .broken, active := some r.corrected
        faults := min ((s.typeSlot x.typeNo).faults + r.correctable) 255 }).dropBroken a x.typeNo := by
  rw [State.passEntry_of_grantable (State.meets_of_requires site required) grantable site,
    State.tryGrant, TypeSlot.read_of_not_readable active (r.not_readable_of_not_sound damaged)]
  simp only
  rw [State.breakType, TypeSlot.reread_of active]

end Sys2Proof.Machine
end

section
/-! CLAIM taken (section 4.3): the claim joins the queue, passes it, and is answered; what the links hold
has no part in it. -/

namespace Sys2Proof.Machine

variable {s t u : State} {h : Head} {a : Option Head}

/-! ### States that differ in the head links alone -/

/-- A state with other head links. -/
def State.withHeads (s : State) (k : PerHead LinkState) : State := { s with headLinks := k }

/-- Two states that differ in what the head links hold, and in nothing else. -/
def SameButLinks (s t : State) : Prop := ∃ k, t = s.withHeads k

namespace SameButLinks

protected theorem refl (s : State) : SameButLinks s s := ⟨s.headLinks, rfl⟩

protected theorem trans (first : SameButLinks s t) (second : SameButLinks t u) : SameButLinks s u := by
  obtain ⟨k, rfl⟩ := first
  obtain ⟨k', rfl⟩ := second
  exact ⟨k', rfl⟩

protected theorem symm (same : SameButLinks s t) : SameButLinks t s := by
  obtain ⟨k, rfl⟩ := same
  exact ⟨s.headLinks, rfl⟩

theorem offer (s : State) (h : Head) (f : OutFrame) : SameButLinks s (s.offer (.head h) f) := ⟨_, rfl⟩

theorem withReply (s : State) (h : Head) (kind tag : Byte) (st : Status) (bytes : List Byte) :
    SameButLinks s (s.withReply (.head h) kind tag st bytes) := ⟨_, rfl⟩

/-- An event on both sides, or on one of them, makes no difference. -/
theorem offer_congr (same : SameButLinks s t) (h : Head) (f g : OutFrame) :
    SameButLinks (s.offer (.head h) f) (t.offer (.head h) g) :=
  (SameButLinks.offer s h f).symm.trans (same.trans (.offer t h g))

theorem dropEntry (same : SameButLinks s t) (a : Option Head) (r : ClaimReason) (e : QueueEntry) :
    SameButLinks (s.dropEntry a r e) (t.dropEntry a r e) := by
  obtain ⟨k, rfl⟩ := same
  have left : SameButLinks ((s.leaveQueue e.head).setMonitor e.head .idle)
      (((s.withHeads k).leaveQueue e.head).setMonitor e.head .idle) := ⟨k, rfl⟩
  unfold State.dropEntry
  simp only
  split
  · exact left
  · exact left.offer_congr _ _ _

theorem dropAll (same : SameButLinks s t) (a : Option Head) (r : ClaimReason) (es : List QueueEntry) :
    SameButLinks (s.dropAll a r es) (t.dropAll a r es) := by
  induction es generalizing s t with
  | nil => exact same
  | cons e es ih => exact ih (same.dropEntry a r e)

theorem grant (same : SameButLinks s t) (e : QueueEntry) (i : Fin 48) (r : TypeRecord) :
    SameButLinks (s.grant e i r) (t.grant e i r) := by
  obtain ⟨k, rfl⟩ := same
  unfold State.grant State.eventGranted State.event
  refine offer_congr ⟨k, ?_⟩ _ _ _
  rfl

theorem raiseBypass (same : SameButLinks s t) (older : List QueueEntry) (n : Fin 96) :
    SameButLinks (s.raiseBypass older n) (t.raiseBypass older n) := by
  obtain ⟨k, rfl⟩ := same
  exact ⟨k, rfl⟩

theorem breakType (same : SameButLinks s t) (a : Option Head) (i : Fin 48) :
    SameButLinks (s.breakType a i) (t.breakType a i) := by
  obtain ⟨k, rfl⟩ := same
  exact dropAll ⟨k, rfl⟩ a _ _

theorem afterGrant (same : SameButLinks s t) (a : Option Head) (older : List QueueEntry) (n : Fin 96) :
    SameButLinks (s.afterGrant a older n) (t.afterGrant a older n) := by
  obtain ⟨k, rfl⟩ := same
  exact raiseBypass (dropAll ⟨k, rfl⟩ a _ _) older n

theorem tryGrant (same : SameButLinks s t) (a : Option Head) (e : QueueEntry) (i : Fin 48) :
    SameButLinks (s.tryGrant a e i) (t.tryGrant a e i) := by
  have slot : t.typeSlot i = s.typeSlot i := by obtain ⟨k, rfl⟩ := same; rfl
  have older : t.olderThan e.head = s.olderThan e.head := by obtain ⟨k, rfl⟩ := same; rfl
  unfold State.tryGrant
  rw [slot, older]
  split
  · exact (same.grant e i _).afterGrant a _ _
  · exact same.breakType a i

theorem passEntry (same : SameButLinks s t) (a : Option Head) (e : QueueEntry) :
    SameButLinks (s.passEntry a e) (t.passEntry a e) := by
  have meets : t.meets e.claim = s.meets e.claim := by obtain ⟨k, rfl⟩ := same; rfl
  have grantable : t.grantable e = s.grantable e := by obtain ⟨k, rfl⟩ := same; rfl
  have typeAt : t.typeAt e.claim.site = s.typeAt e.claim.site := by obtain ⟨k, rfl⟩ := same; rfl
  unfold State.passEntry
  rw [meets, grantable, typeAt]
  split_ifs
  · split
    · exact same.tryGrant a e _
    · exact same
  · exact same
  · exact same.dropEntry a _ e

theorem pass (same : SameButLinks s t) (a : Option Head) : SameButLinks (s.pass a) (t.pass a) := by
  have passes (hs : List Head) {s t : State} (same : SameButLinks s t) :
      SameButLinks (State.passOver a hs s) (State.passOver a hs t) := by
    induction hs generalizing s t with
    | nil => exact same
    | cons h hs ih =>
      have entry : t.entryOf h = s.entryOf h := by obtain ⟨k, rfl⟩ := same; rfl
      unfold State.passOver
      rw [entry]
      cases s.entryOf h with
      | none => exact ih same
      | some e => exact ih (same.passEntry a e)
  have queue : t.queue = s.queue := by obtain ⟨k, rfl⟩ := same; rfl
  unfold State.pass
  rw [queue]
  exact passes _ same

end SameButLinks

/-! ### The answers of CLAIM (R66 to R68) -/

/-- CLAIM of an IDLE head on a site that meets the claim, its type not BROKEN: the claim is taken. -/
theorem claimAnswer_taken {n : Byte} {wait restrike : Bool} {site : Fin 96} {e : SiteEntry}
    (number : site.val = n.toNat) (isOpen : s.board.state = .isOpen) (released : s.estop = false)
    (idle : (s.monitor h).state = .idle) (entry : s.site site = some e)
    (required : Claim.requires ⟨site, restrike⟩ e) (unbroken : (s.typeSlot e.typeNo).state ≠ .broken) :
    claimAnswer h ([n] ++ flagByte wait ++ flagByte restrike) s =
      if wait then s.claimWaiting h ⟨site, restrike⟩ else s.claimAtOnce h ⟨site, restrike⟩ := by
  have flag (b : Bool) : (BitVec.ofNat 8 b.toNat).toNat ≤ 1 ∧
      ((BitVec.ofNat 8 b.toNat).toNat == 1) = b := by cases b <;> decide
  have on_site : claimAnswer h ([n] ++ flagByte wait ++ flagByte restrike) s =
      s.claimSite h wait ⟨site, restrike⟩ := by
    refine (claimAnswer_of_site n (flag wait).1 (flag restrike).1 isOpen released idle number).trans ?_
    rw [claimOn, (flag wait).2, (flag restrike).2]
  have met : s.meets ⟨site, restrike⟩ = true := State.meets_of_requires entry required
  have sound_type : s.typeStateAt site ≠ some .broken := by
    rw [State.typeStateAt_of_site entry]
    exact fun broken => unbroken (Option.some.inj broken)
  rw [on_site, State.claimSite, if_neg (by simp [met]), if_neg sound_type]

/-- CLAIM taken: its effects and its answer, on the state with the reply (R169). -/
theorem exec_claim_taken {tag n : Byte} {wait restrike : Bool} {site : Fin 96} {e : SiteEntry}
    {st : Status} {bytes : List Byte} (takes : s.takes (.head h) = true)
    (number : site.val = n.toNat) (isOpen : s.board.state = .isOpen) (released : s.estop = false)
    (idle : (s.monitor h).state = .idle) (entry : s.site site = some e)
    (required : Claim.requires ⟨site, restrike⟩ e) (unbroken : (s.typeSlot e.typeNo).state ≠ .broken)
    (answer : (if wait then (s.withReply (.head h) 17 tag st bytes).claimWaiting h ⟨site, restrike⟩
      else (s.withReply (.head h) 17 tag st bytes).claimAtOnce h ⟨site, restrike⟩) =
        ⟨t, { status := st, fields := bytes }⟩) :
    exec (.claim h tag ([n] ++ flagByte wait ++ flagByte restrike)) s = .next t := by
  refine congrArg Host.Outcome.next (State.request_of (claimAnswer_stamps h _) takes ?_
    ((claimAnswer_taken (e := e) number ?_ ?_ ?_ ?_ required ?_).trans answer))
  · simp [flagByte, u8]
  all_goals simpa

/-- What the OK reply to CLAIM carries (R67, log 17). -/
def State.claimBytes (s : State) (h : Head) (n : Byte) : List Byte :=
  [n] ++ u8 (s.monitor h).state.code ++ optField 1 ((s.queuePosition h).map u8)

theorem claimReply_eq {n : Byte} {site : Fin 96} (number : site.val = n.toNat) (s : State) (h : Head) :
    claimReply s h site = { status := .ok, fields := s.claimBytes h n } := by
  rw [claimReply, u8_toNat number, State.claimBytes]

theorem SameButLinks.monitor (same : SameButLinks s t) (h : Head) : t.monitor h = s.monitor h := by
  obtain ⟨k, rfl⟩ := same
  rfl

theorem SameButLinks.missing (same : SameButLinks s t) (h : Head) (c : Claim) :
    t.missing h c = s.missing h c := by
  obtain ⟨k, rfl⟩ := same
  rfl

theorem SameButLinks.claimBytes (same : SameButLinks s t) (h : Head) (n : Byte) :
    t.claimBytes h n = s.claimBytes h n := by
  obtain ⟨k, rfl⟩ := same
  rfl

/-- A claim that asks to wait, joined to the queue (R67). -/
def State.joinedWaiting (s : State) (h : Head) (c : Claim) : State :=
  { s with
    queue := s.queue ++ [{ head := h, claim := c, bypass := 0 }]
    monitors := s.monitors.set h { s.monitor h with state := .waiting } }

theorem State.claimWaiting_withReply {n : Byte} {c : Claim} (number : c.site.val = n.toNat) (s : State)
    (h : Head) (tag : Byte) (st : Status) (bytes : List Byte) :
    (s.withReply (.head h) 17 tag st bytes).claimWaiting h c =
      ⟨((s.joinedWaiting h c).withReply (.head h) 17 tag st bytes).pass none,
        { status := .ok, fields := ((s.joinedWaiting h c).pass none).claimBytes h n }⟩ := by
  have passed : (s.withReply (.head h) 17 tag st bytes).claimWaiting h c =
      ⟨((s.joinedWaiting h c).withReply (.head h) 17 tag st bytes).pass none,
        claimReply (((s.joinedWaiting h c).withReply (.head h) 17 tag st bytes).pass none) h c.site⟩ := rfl
  rw [passed, claimReply_eq number, ((SameButLinks.withReply (s.joinedWaiting h c) h 17 tag st bytes).pass
    none).claimBytes]

section
variable {c : Claim}

theorem State.claimAtOnce_withReply_armed {n : Byte} (number : c.site.val = n.toNat)
    (armed : (((s.joinQueue h c).pass (some h)).monitor h).state = .armed) (tag : Byte) (st : Status)
    (bytes : List Byte) : (s.withReply (.head h) 17 tag st bytes).claimAtOnce h c =
      ⟨((s.joinQueue h c).withReply (.head h) 17 tag st bytes).pass (some h),
        { status := .ok, fields := ((s.joinQueue h c).pass (some h)).claimBytes h n }⟩ := by
  have same := (SameButLinks.withReply (s.joinQueue h c) h 17 tag st bytes).pass (some h)
  have joined : (s.withReply (.head h) 17 tag st bytes).joinQueue h c =
      (s.joinQueue h c).withReply (.head h) 17 tag st bytes := rfl
  unfold State.claimAtOnce
  simp only
  rw [joined, if_pos (by rw [same.monitor]; exact armed), claimReply_eq number, same.claimBytes]

theorem State.claimAtOnce_withReply_refused
    (unarmed : (((s.joinQueue h c).pass (some h)).monitor h).state ≠ .armed) {st : Status}
    (missing : ((s.joinQueue h c).pass (some h)).missing h c = st) (tag : Byte) (st' : Status)
    (bytes : List Byte) : (s.withReply (.head h) 17 tag st' bytes).claimAtOnce h c =
      ⟨(((s.joinQueue h c).withReply (.head h) 17 tag st' bytes).pass (some h)).leaveQueue h,
        { status := st, fields := [] }⟩ := by
  have same := (SameButLinks.withReply (s.joinQueue h c) h 17 tag st' bytes).pass (some h)
  have joined : (s.withReply (.head h) 17 tag st' bytes).joinQueue h c =
      (s.joinQueue h c).withReply (.head h) 17 tag st' bytes := rfl
  unfold State.claimAtOnce
  simp only
  rw [joined, if_neg (by rw [same.monitor]; exact unarmed), same.missing, missing]
  rfl

end

section
variable {tag n : Byte} {restrike : Bool} {site : Fin 96} {e : SiteEntry}
  (takes : s.takes (.head h) = true) (number : site.val = n.toNat) (isOpen : s.board.state = .isOpen)
  (released : s.estop = false) (idle : (s.monitor h).state = .idle) (entry : s.site site = some e)
  (required : Claim.requires ⟨site, restrike⟩ e) (unbroken : (s.typeSlot e.typeNo).state ≠ .broken)
include takes number isOpen released idle entry required unbroken

/-- R67: a claim that asks to wait passes the queue, and the answer tells its head's state and place. -/
theorem exec_claim_waiting : exec (.claim h tag ([n, 1] ++ flagByte restrike)) s =
    .next (((s.joinedWaiting h ⟨site, restrike⟩).withReply (.head h) 17 tag .ok
      (((s.joinedWaiting h ⟨site, restrike⟩).pass none).claimBytes h n)).pass none) :=
  exec_claim_taken (wait := true) (e := e) takes number isOpen released idle entry required unbroken
    (State.claimWaiting_withReply number s h tag .ok _)

/-- R68: a claim not to wait that the pass grants. -/
theorem exec_claim_atOnce_armed
    (armed : (((s.joinQueue h ⟨site, restrike⟩).pass (some h)).monitor h).state = .armed) :
    exec (.claim h tag ([n, 0] ++ flagByte restrike)) s =
      .next (((s.joinQueue h ⟨site, restrike⟩).withReply (.head h) 17 tag .ok
        (((s.joinQueue h ⟨site, restrike⟩).pass (some h)).claimBytes h n)).pass (some h)) := by
  refine exec_claim_taken (wait := false) (e := e) takes number isOpen released idle entry required
    unbroken ((State.claimAtOnce_withReply_armed number ?_ tag .ok _))
  exact armed

/-- R68: a claim not to wait that the pass does not grant is removed, and answered with the first
missing condition. -/
theorem exec_claim_atOnce_refused {st : Status}
    (unarmed : (((s.joinQueue h ⟨site, restrike⟩).pass (some h)).monitor h).state ≠ .armed)
    (missing : ((s.joinQueue h ⟨site, restrike⟩).pass (some h)).missing h ⟨site, restrike⟩ = st) :
    exec (.claim h tag ([n, 0] ++ flagByte restrike)) s =
      .next ((((s.joinQueue h ⟨site, restrike⟩).withReply (.head h) 17 tag st []).pass
        (some h)).leaveQueue h) :=
  exec_claim_taken (wait := false) (e := e) takes number isOpen released idle entry required
    unbroken (State.claimAtOnce_withReply_refused unarmed missing tag st [])

end

end Sys2Proof.Machine
end

section
/-! A lone claim (section 4.3): granted, waiting or refused (obligations O28 and O29). -/

namespace Sys2Proof.Machine

variable {s t u : State} {h : Head} {a : Option Head}

/-! ### A claim at the young end of the queue -/

/-- A state with one entry more at the young end of its queue, on the same sites, types, zones and
slots. -/
structure Joined (s u : State) (q : QueueEntry) : Prop where
  queue : u.queue = s.queue ++ [q]
  site : ∀ n, u.site n = s.site n
  typeSlot : ∀ i, u.typeSlot i = s.typeSlot i
  holder : ∀ z, u.holder z = s.holder z
  slots : u.records.length + u.reserved = s.records.length + s.reserved
  board : u.board = s.board

namespace Joined

theorem joinQueue (s : State) (h : Head) (c : Claim) :
    Joined s (s.joinQueue h c) { head := h, claim := c, bypass := 0 } :=
  ⟨rfl, fun _ => rfl, fun _ => rfl, fun _ => rfl, rfl, rfl⟩

theorem joinedWaiting (s : State) (h : Head) (c : Claim) :
    Joined s (s.joinedWaiting h c) { head := h, claim := c, bypass := 0 } := by
  refine ⟨rfl, fun _ => rfl, fun _ => rfl, fun _ => rfl, ?_, rfl⟩
  have same := PerHead.countP_set s.monitors h { s.monitor h with state := .waiting } (·.slot)
  exact congrArg (s.records.length + ·) (Nat.add_right_cancel same)

variable {q : QueueEntry}

theorem withReply (joined : Joined s u q) (kind tag : Byte) (st : Status) (bytes : List Byte) :
    Joined s (u.withReply (.head h) kind tag st bytes) q := by
  obtain ⟨queue, site, typeSlot, holder, slots, board⟩ := joined
  exact ⟨queue, site, typeSlot, holder, slots, board⟩

theorem keepOut (joined : Joined s u q) (n : Fin 96) : u.keepOut n = s.keepOut n := by
  rw [State.keepOut, joined.site, State.keepOut]

/-- The entries older than one at the young end: all that stood in the queue. -/
theorem older (joined : Joined s u q) (apart : ∀ o ∈ s.queue, o.head ≠ q.head) :
    u.olderThan q.head = s.queue := by
  rw [State.olderThan, joined.queue, List.takeWhile_append_of_pos (by simpa using apart)]
  simp

theorem grantable_iff (joined : Joined s u q) (apart : ∀ o ∈ s.queue, o.head ≠ q.head) {x : SiteEntry}
    (site : s.site q.claim.site = some x) (required : q.claim.requires x) :
    u.grantable q = true ↔ (s.typeSlot x.typeNo).state = .ready ∧
      (∀ z ∈ x.keepOut, s.holder z = none) ∧ s.records.length + s.reserved < 64 ∧
      ∀ o ∈ s.queue, o.bypass = s.board.bypassLimit →
        ∀ z ∈ s.keepOut o.claim.site, z ∉ x.keepOut := by
  rw [State.grantable_of_site ((joined.site _).trans site) required, joined.older apart, joined.slots,
    joined.board]
  simp only [joined.typeSlot, joined.holder, joined.keepOut]

end Joined

/-! ### The pass of one entry, and of two -/

theorem State.entryOf_cons_self {q : QueueEntry} {rest : List QueueEntry}
    (queue : s.queue = q :: rest) : s.entryOf q.head = some q := by
  simp [State.entryOf, queue]

theorem State.pass_singleton {q : QueueEntry} (queue : s.queue = [q]) : s.pass a = s.passEntry a q := by
  rw [State.pass, queue, List.map_singleton, State.passOver, State.entryOf_cons_self queue]
  rfl

theorem State.pass_pair {o q : QueueEntry} (queue : s.queue = [o, q]) (apart : o.head ≠ q.head)
    (kept : s.passEntry a o = s) : s.pass a = s.passEntry a q := by
  have second : s.entryOf q.head = some q := by simp [State.entryOf, queue, apart]
  rw [State.pass, queue, List.map_cons, List.map_singleton, State.passOver, State.entryOf_cons_self queue]
  simp only [kept]
  rw [State.passOver, second]
  rfl

theorem State.afterGrant_of_nil (empty : s.queue = []) (older : List QueueEntry) (n : Fin 96) :
    s.afterGrant a older n = s := by
  have none_waits : s.waitingOnSite n = [] := by simp [State.waitingOnSite, empty]
  rw [State.afterGrant, none_waits, State.dropAll_nil, State.raiseBypass, empty, List.map_nil, ← empty]

/-! ### The lone claim -/

section
variable {q : QueueEntry} {x : SiteEntry} {r : StoredRecord}

theorem filter_joined (qs : List QueueEntry) (h : Head) (c : Claim) :
    (qs ++ [({ head := h, claim := c, bypass := 0 } : QueueEntry)]).filter (fun o => !(o.head == h)) =
      qs.filter fun o => !(o.head == h) := by
  simp

/-- What a grant leaves is the same whether or not the entry and the WAITING state stand there. -/
theorem State.granted_joinQueue (s : State) (h : Head) (c : Claim) (x : SiteEntry) (r : StoredRecord) :
    (s.joinQueue h c).granted h c x r = s.granted h c x r := by
  simp only [State.granted, State.joinQueue, filter_joined]
  rfl

theorem State.granted_joinedWaiting (s : State) (h : Head) (c : Claim) (x : SiteEntry)
    (r : StoredRecord) : (s.joinedWaiting h c).granted h c x r = s.granted h c x r := by
  simp only [State.granted, State.joinedWaiting, filter_joined, PerHead.set_set]
  rfl

theorem State.granted_withReply (s : State) (h : Head) (kind tag : Byte) (st : Status)
    (bytes : List Byte) (c : Claim) (x : SiteEntry) (r : StoredRecord) :
    (s.withReply (.head h) kind tag st bytes).granted h c x r =
      (s.granted h c x r).withReply (.head h) kind tag st bytes := by
  unfold State.granted
  simp only [State.withReply_holder]
  rfl

theorem State.granted_monitor (s : State) (h : Head) (c : Claim) (x : SiteEntry) (r : StoredRecord) :
    (s.granted h c x r).monitor h =
      { state := .armed, claim := some c
        grantTime := some s.clock, slot := true
        copy := some { typeNo := x.typeNo, fields := r.fields }
        permit := false, stroke := none } := PerHead.get_set_self ..

/-- The answer to a claim granted with no other waiting. -/
theorem State.claimBytes_of_armed {n : Byte} (armed : (s.monitor h).state = .armed)
    (empty : s.queue = []) : s.claimBytes h n = [n, 2, 0, 0] := by
  simp [State.claimBytes, armed, State.queuePosition, State.entryOf, empty, HeadState.code, u8, optField]

/-- A lone entry granted: nothing is dropped, and no count rises. -/
theorem Joined.pass_granted (joined : Joined s u q) (empty : s.queue = [])
    (site : s.site q.claim.site = some x) (required : q.claim.requires x)
    (ready : (s.typeSlot x.typeNo).state = .ready) (active : (s.typeSlot x.typeNo).active = some r)
    (sound : r.sound) (zones : ∀ z ∈ x.keepOut, s.holder z = none)
    (slots : s.records.length + s.reserved < 64) : u.pass a =
      (u.granted q.head q.claim x r).offer (.head q.head) (u.grantedFrame q.claim x r) := by
  have grantable : u.grantable q = true := by
    rw [joined.grantable_iff (by simp [empty]) site required]
    exact ⟨ready, zones, slots, by simp [empty]⟩
  have left : (u.granted q.head q.claim x r).queue = [] := by
    simp [State.granted, joined.queue, empty]
  rw [State.pass_singleton (q := q) (by rw [joined.queue, empty]; rfl),
    State.passEntry_granted ((joined.site _).trans site) required grantable
      (by rwa [joined.typeSlot]) sound, State.afterGrant_of_nil]
  simpa using left

end

/-- Settles O28: the pass grants the entry, and its answer comes before GRANTED. -/
theorem loneClaimIsGranted : Obligations.LoneClaimIsGranted := by
  intro h tag n wait restrike site e r s takes number empty isOpen released idle entry required ready
    active order sound zones slots
  have requires : Claim.requires ⟨site, restrike⟩ e := required
  have unbroken : (s.typeSlot e.typeNo).state ≠ .broken := by rw [ready]; nofun
  have idle' : (s.monitor h).state = .idle := by rw [idle]; rfl
  have passed {u : State} (joined : Joined s u { head := h, claim := ⟨site, restrike⟩, bypass := 0 })
      (a : Option Head) : u.pass a = (u.granted h ⟨site, restrike⟩ e r).offer (.head h)
        (u.grantedFrame ⟨site, restrike⟩ e r) :=
    joined.pass_granted empty entry requires ready active sound zones slots
  have bytes : ((s.granted h ⟨site, restrike⟩ e r).offer (.head h)
      (s.grantedFrame ⟨site, restrike⟩ e r)).claimBytes h n = [n, 2, 0, 0] := by
    refine State.claimBytes_of_armed ?_ ?_
    · rw [State.offer_monitor, State.granted_monitor]
    · simp [State.granted, empty]
  have frame {u : State} (board : u.board = s.board) : u.grantedFrame ⟨site, restrike⟩ e r =
      eventFrame 64 ([n] ++ u8 e.typeNo.val ++ u32 r.fields.partCode.toNat ++ flagByte restrike
        ++ u8 s.board.holdTime) := by
    rw [State.grantedFrame, u8_toNat number, board]
  have laid : s.granted h ⟨site, restrike⟩ e r = { s with
      library := s.library.set e.typeNo { s.typeSlot e.typeNo with
        users := (s.typeSlot e.typeNo).users + 1
        active := some { r with flips := [] }
        faults := min ((s.typeSlot e.typeNo).faults + r.flips.length) 255 }
      zones := Vector.ofFn fun z => if z ∈ e.keepOut then some h else s.holder z
      sites := s.sites.set site (some { e with
        state := .claimed h (if restrike then .rejected else .loaded) })
      monitors := s.monitors.set h
        { state := .armed, claim := some { site := site, restrike := restrike }
          grantTime := some s.clock, slot := true
          copy := some { typeNo := e.typeNo, fields := r.fields }
          permit := false, stroke := none } } := by
    unfold State.granted
    simp only [empty, List.filter_nil]
  rw [← laid]
  cases wait with
  | true =>
    refine (exec_claim_waiting takes number isOpen released idle' entry requires unbroken).trans ?_
    have told : ((s.joinedWaiting h ⟨site, restrike⟩).pass none).claimBytes h n = [n, 2, 0, 0] := by
      rw [passed (.joinedWaiting ..), State.granted_joinedWaiting]
      exact bytes
    rw [told, passed ((Joined.joinedWaiting ..).withReply ..), State.granted_withReply,
      State.granted_joinedWaiting, frame ((Joined.joinedWaiting ..).withReply ..).board]
  | false =>
    have alone := passed (.joinQueue s h ⟨site, restrike⟩) (some h)
    rw [State.granted_joinQueue] at alone
    refine (exec_claim_atOnce_armed takes number isOpen released idle' entry requires unbroken ?_).trans ?_
    · rw [alone, State.offer_monitor, State.granted_monitor]
    have told : ((s.joinQueue h ⟨site, restrike⟩).pass (some h)).claimBytes h n = [n, 2, 0, 0] := by
      rw [alone]
      exact bytes
    rw [told, passed ((Joined.joinQueue ..).withReply ..), State.granted_withReply,
      State.granted_joinQueue, frame ((Joined.joinQueue ..).withReply ..).board]

/-! ### The lone claim that is not granted (R68, R74) -/

theorem State.missing_gone {c : Claim} (gone : s.entryOf h = none) :
    s.missing h c = if s.meets c then .typeBroken else .siteState := by
  rw [State.missing, gone]

theorem State.missing_standing {c : Claim} {q : QueueEntry} (stands : s.entryOf h = some q) :
    s.missing h c = if s.typeStateAt c.site = some .draining then .typeDraining
      else if s.zonesFree c.site = false ∨ s.blocked q then .zoneBusy
      else if s.slotFree = false then .noRecordSpace
      else .typeBroken := by
  rw [State.missing, stands]

theorem State.leaveQueue_of_apart (s : State) {h : Head} (apart : ∀ o ∈ s.queue, o.head ≠ h) :
    s.leaveQueue h = s := by
  have all : s.queue.filter (fun o => !(o.head == h)) = s.queue :=
    List.filter_eq_self.2 (by simpa using apart)
  rw [State.leaveQueue, all]

theorem State.leaveQueue_joinQueue (s : State) {h : Head} (apart : ∀ o ∈ s.queue, o.head ≠ h)
    (c : Claim) : (s.joinQueue h c).leaveQueue h = s := by
  refine Eq.trans ?_ (s.leaveQueue_of_apart apart)
  simp only [State.leaveQueue, State.joinQueue, filter_joined]

/-- A claim that joins the queue and is dropped from it again leaves its IDLE head as it was. -/
theorem State.dropped_joinQueue (s : State) {h : Head} (apart : ∀ o ∈ s.queue, o.head ≠ h)
    (idle : s.monitor h = Monitor.idle) (c : Claim) :
    ((s.joinQueue h c).leaveQueue h).setMonitor h Monitor.idle = s := by
  rw [s.leaveQueue_joinQueue apart, ← idle, State.setMonitor_self]

theorem State.dropped_joinedWaiting (s : State) {h : Head} (apart : ∀ o ∈ s.queue, o.head ≠ h)
    (idle : s.monitor h = Monitor.idle) (c : Claim) :
    ((s.joinedWaiting h c).leaveQueue h).setMonitor h Monitor.idle = s := by
  have same : ((s.joinedWaiting h c).leaveQueue h).setMonitor h Monitor.idle =
      ((s.joinQueue h c).leaveQueue h).setMonitor h Monitor.idle := by
    simp only [State.joinedWaiting, State.leaveQueue, State.setMonitor, State.joinQueue, PerHead.set_set]
  rw [same, s.dropped_joinQueue apart idle]

section
variable {q : QueueEntry} {x : SiteEntry} {r : StoredRecord}

/-- A lone entry that is not grantable stays, and nothing else changes. -/
theorem Joined.pass_waits (joined : Joined s u q) (empty : s.queue = [])
    (site : s.site q.claim.site = some x) (required : q.claim.requires x)
    (not_yet : ¬ ((s.typeSlot x.typeNo).state = .ready ∧ (∀ z ∈ x.keepOut, s.holder z = none) ∧
      s.records.length + s.reserved < 64)) : u.pass a = u := by
  have not_grantable : u.grantable q = false := by
    rw [Bool.eq_false_iff, ne_eq, joined.grantable_iff (by simp [empty]) site required]
    exact fun ⟨ready, zones, slots, _⟩ => not_yet ⟨ready, zones, slots⟩
  rw [State.pass_singleton (q := q) (by rw [joined.queue, empty]; rfl),
    State.passEntry_of_not_grantable (State.meets_of_requires ((joined.site _).trans site) required)
      not_grantable]

/-- A lone entry whose type's read fails is dropped, its type BROKEN. -/
theorem Joined.pass_broken (joined : Joined s u q) (empty : s.queue = [])
    (site : s.site q.claim.site = some x) (required : q.claim.requires x)
    (ready : (s.typeSlot x.typeNo).state = .ready) (active : (s.typeSlot x.typeNo).active = some r)
    (damaged : ¬ r.sound) (zones : ∀ z ∈ x.keepOut, s.holder z = none)
    (slots : s.records.length + s.reserved < 64) : u.pass a =
      (u.setType x.typeNo { s.typeSlot x.typeNo with
        state := .broken, active := some r.corrected
        faults := min ((s.typeSlot x.typeNo).faults + r.correctable) 255 }).dropEntry a .typeBroken q := by
  have grantable : u.grantable q = true := by
    rw [joined.grantable_iff (by simp [empty]) site required]
    exact ⟨ready, zones, slots, by simp [empty]⟩
  have site' : u.site q.claim.site = some x := (joined.site _).trans site
  have queue : u.queue = [q] := by rw [joined.queue, empty]; rfl
  rw [State.pass_singleton queue, State.passEntry_broken site' required grantable
    (by rwa [joined.typeSlot]) damaged, joined.typeSlot, State.dropBroken]
  simp [State.waitingOnType, queue, State.typeAt, site', State.dropAll]

end

/-- The answer to a claim dropped in the pass that it brought. -/
theorem State.claimBytes_of_idle {n : Byte} (idle : (s.monitor h).state = .idle)
    (gone : s.entryOf h = none) : s.claimBytes h n = [n, 0, 0, 0] := by
  simp [State.claimBytes, idle, State.queuePosition, gone, HeadState.code, u8, optField]

theorem State.entryOf_of_leaveQueue (s : State) (h : Head) : (s.leaveQueue h).entryOf h = none := by
  simp [State.entryOf]

/-- R74: a lone claim whose type's read fails: the type is BROKEN, and the claim refused, or dropped with
TYPE_BROKEN. -/
theorem exec_claim_broken {tag n : Byte} {restrike : Bool} {site : Fin 96} {e : SiteEntry}
    {r : StoredRecord} (takes : s.takes (.head h) = true) (number : site.val = n.toNat)
    (empty : s.queue = []) (isOpen : s.board.state = .isOpen) (released : s.estop = false)
    (idle : s.monitor h = Monitor.idle) (entry : s.site site = some e)
    (required : Claim.requires ⟨site, restrike⟩ e) (ready : (s.typeSlot e.typeNo).state = .ready)
    (active : (s.typeSlot e.typeNo).active = some r) (damaged : ¬ r.sound)
    (zones : ∀ z ∈ e.keepOut, s.holder z = none) (slots : s.records.length + s.reserved < 64) :
    let broken := s.setType e.typeNo { s.typeSlot e.typeNo with
      state := .broken, active := some r.corrected
      faults := min ((s.typeSlot e.typeNo).faults + r.correctable) 255 }
    exec (.claim h tag ([n, 0] ++ flagByte restrike)) s =
        .next (broken.withReply (.head h) 17 tag .typeBroken []) ∧
      exec (.claim h tag ([n, 1] ++ flagByte restrike)) s =
        .next ((broken.withReply (.head h) 17 tag .ok [n, 0, 0, 0]).offer (.head h)
          (eventFrame 65 [n, 1])) := by
  intro broken
  have idle' : (s.monitor h).state = .idle := by rw [idle]; rfl
  have unbroken : (s.typeSlot e.typeNo).state ≠ .broken := by rw [ready]; nofun
  have told : ClaimReason.typeBroken ≠ .linkDown := nofun
  have passed {u : State} (joined : Joined s u { head := h, claim := ⟨site, restrike⟩, bypass := 0 })
      (a : Option Head) := joined.pass_broken (a := a) empty entry required ready active damaged zones slots
  have apart (st : Status) (bytes : List Byte) :
      ∀ o ∈ (broken.withReply (.head h) 17 tag st bytes).queue, o.head ≠ h := by
    simp [broken, empty]
  have idle'' (st : Status) (bytes : List Byte) :
      (broken.withReply (.head h) 17 tag st bytes).monitor h = Monitor.idle := by
    simpa [broken] using idle
  constructor
  · have dropped := passed (.joinQueue s h ⟨site, restrike⟩) (some h)
    rw [State.dropEntry_eq told, if_pos rfl] at dropped
    refine (exec_claim_atOnce_refused takes number isOpen released idle' entry required unbroken
      (st := .typeBroken) ?_ ?_).trans ?_
    · rw [dropped, State.setMonitor_monitor, if_pos rfl]
      nofun
    · have gone : ((s.joinQueue h ⟨site, restrike⟩).pass (some h)).entryOf h = none := by
        rw [dropped]
        exact State.entryOf_of_leaveQueue _ h
      rw [State.missing_gone gone, if_pos]
      rw [dropped]
      exact State.meets_of_requires entry required
    · rw [passed ((Joined.joinQueue ..).withReply ..), State.dropEntry_eq told, if_pos rfl]
      have back := (broken.withReply (.head h) 17 tag .typeBroken []).dropped_joinQueue
        (apart _ _) (idle'' _ _) ⟨site, restrike⟩
      exact congrArg Host.Outcome.next ((congrArg (State.leaveQueue · h) back).trans
        (State.leaveQueue_of_apart _ (apart _ _)))
  · have dropped := passed (.joinedWaiting s h ⟨site, restrike⟩) none
    rw [State.dropEntry_eq told, if_neg nofun] at dropped
    have bytes : ((s.joinedWaiting h ⟨site, restrike⟩).pass none).claimBytes h n = [n, 0, 0, 0] := by
      rw [dropped]
      refine State.claimBytes_of_idle ?_ (State.entryOf_of_leaveQueue _ h)
      rw [State.offer_monitor, State.setMonitor_monitor, if_pos rfl]
      rfl
    refine (exec_claim_waiting takes number isOpen released idle' entry required unbroken).trans ?_
    rw [bytes, passed ((Joined.joinedWaiting ..).withReply ..), State.dropEntry_eq told, if_neg nofun]
    have back := (broken.withReply (.head h) 17 tag .ok [n, 0, 0, 0]).dropped_joinedWaiting
      (apart _ _) (idle'' _ _) ⟨site, restrike⟩
    have reason : u8 site.val ++ u8 ClaimReason.typeBroken.code = [n, 1] := by
      rw [u8_toNat number]
      rfl
    rw [reason]
    exact congrArg (fun v : State => Host.Outcome.next (v.offer (.head h) (eventFrame 65 [n, 1]))) back

/-- Settles O29: the entry waits, or is removed and the first condition it misses is told. -/
theorem loneClaimWaitsOrIsRefused : Obligations.LoneClaimWaitsOrIsRefused := by
  intro h tag n restrike site e s takes number empty isOpen released idle entry required
  have requires : Claim.requires ⟨site, restrike⟩ e := required
  have idle' : (s.monitor h).state = .idle := by rw [idle]; rfl
  have apart : ∀ o ∈ s.queue, o.head ≠ h := by simp [empty]
  intro slot waiting atOnce zoneHeld full
  have held_iff : zoneHeld ↔ ¬ ∀ z ∈ e.keepOut, s.holder z = none := by
    simp only [not_forall, ← Option.ne_none_iff_exists', zoneHeld]
    simp
  -- the entry stays where a condition is missing
  have stays {u : State} (joined : Joined s u { head := h, claim := ⟨site, restrike⟩, bypass := 0 })
      (missing : slot.state = .draining ∨ slot.state = .ready ∧ (zoneHeld ∨ full)) (a : Option Head) :
      u.pass a = u := by
    refine joined.pass_waits empty entry requires fun ⟨ready, zones, slots⟩ => ?_
    obtain draining | ⟨-, held | none_free⟩ := missing
    · rw [show slot.state = .ready from ready] at draining; cases draining
    · exact held_iff.1 held zones
    · exact absurd slots (Nat.not_lt.2 none_free)
  have refused {st : Status} (missing : slot.state = .draining ∨ slot.state = .ready ∧ (zoneHeld ∨ full))
      (first : (s.joinQueue h ⟨site, restrike⟩).missing h ⟨site, restrike⟩ = st) :
      exec atOnce s = .next (s.withReply (.head h) 17 tag st []) := by
    have unbroken : slot.state ≠ .broken := by
      obtain st | ⟨st, -⟩ := missing <;> rw [st] <;> nofun
    refine (exec_claim_atOnce_refused takes number isOpen released idle' entry requires unbroken
      (st := st) ?_ ?_).trans ?_
    · rw [stays (.joinQueue ..) missing]
      exact fun armed => by rw [show (s.monitor h).state = .armed from armed] at idle'; cases idle'
    · rw [stays (.joinQueue ..) missing, first]
    · rw [stays ((Joined.joinQueue ..).withReply ..) missing]
      exact congrArg Host.Outcome.next ((s.withReply (.head h) 17 tag st []).leaveQueue_joinQueue
        (by simpa using apart) _)
  have standing : (s.joinQueue h ⟨site, restrike⟩).entryOf h =
      some { head := h, claim := ⟨site, restrike⟩, bypass := 0 } :=
    State.entryOf_cons_self (q := { head := h, claim := ⟨site, restrike⟩, bypass := 0 }) (rest := [])
      (by rw [State.joinQueue, empty]; rfl)
  have typeState : (s.joinQueue h ⟨site, restrike⟩).typeStateAt site = some slot.state :=
    State.typeStateAt_of_site entry
  have zonesFree : (s.joinQueue h ⟨site, restrike⟩).zonesFree site = false ↔ zoneHeld := by
    rw [← Bool.not_eq_true, State.zonesFree_iff,
      State.keepOut_of_site (s := s.joinQueue h ⟨site, restrike⟩) (x := e) entry, held_iff]
    rfl
  have unblocked : (s.joinQueue h ⟨site, restrike⟩).blocked
      { head := h, claim := ⟨site, restrike⟩, bypass := 0 } = false := by
    rw [← Bool.not_eq_true, State.blocked_iff]
    rintro ⟨o, older, -⟩
    rw [(Joined.joinQueue s h ⟨site, restrike⟩).older (by simpa using apart), empty] at older
    cases older
  refine ⟨fun missing => ?_, fun draining => ?_, fun ready held => ?_, fun ready free none_free => ?_,
    fun r ready free slots active damaged => ?_⟩
  · have unbroken : slot.state ≠ .broken := by
      obtain st | ⟨st, -⟩ := missing <;> rw [st] <;> nofun
    have told : (s.joinedWaiting h ⟨site, restrike⟩).claimBytes h n = [n, 1, 1, 1] := by
      simp [State.claimBytes, State.joinedWaiting, State.monitor, State.queuePosition, State.entryOf,
        empty, HeadState.code, u8, optField]
    have laid : s.joinedWaiting h ⟨site, restrike⟩ = { s with
        queue := [{ head := h, claim := { site := site, restrike := restrike }, bypass := 0 }]
        monitors := s.monitors.set h { Monitor.idle with state := .waiting } } := by
      rw [State.joinedWaiting, empty, idle]
      rfl
    rw [← laid]
    refine (exec_claim_waiting takes number isOpen released idle' entry requires unbroken).trans ?_
    rw [stays (.joinedWaiting ..) missing, told, stays ((Joined.joinedWaiting ..).withReply ..) missing]
  · refine refused (.inl draining) ?_
    rw [State.missing_standing standing, typeState]
    exact if_pos (congrArg some draining)
  all_goals
    have steady : some slot.state ≠ some .draining := by
      rw [show slot.state = .ready from ready]
      nofun
  · refine refused (.inr ⟨ready, .inl held⟩) ?_
    rw [State.missing_standing standing, typeState, if_neg steady]
    exact if_pos (.inl (zonesFree.2 held))
  · have slotless : (s.joinQueue h ⟨site, restrike⟩).slotFree = false := by
      rw [← Bool.not_eq_true, State.slotFree_iff]
      exact Nat.not_lt.2 none_free
    refine refused (.inr ⟨ready, .inr none_free⟩) ?_
    rw [State.missing_standing standing, typeState, if_neg steady, unblocked,
      if_neg (by rw [zonesFree]; simpa using free), if_pos slotless]
  · have zones : ∀ z ∈ e.keepOut, s.holder z = none := not_not.1 (mt held_iff.2 free)
    exact exec_claim_broken takes number empty isOpen released idle entry requires ready active damaged
      zones (Nat.not_le.1 slots)

end Sys2Proof.Machine
end

section
/-! The bypass limit and the pass (sections 4.4 and 4.5): obligation O30. -/

namespace Sys2Proof.Machine

variable {s t u : State} {h : Head} {a : Option Head}

/-! ### The pass as a fold (R70) -/

/-- The pass takes the entry of one head, where it stands. -/
def State.passHead (a : Option Head) (s : State) (h : Head) : State :=
  (s.entryOf h).elim s (s.passEntry a)

theorem State.passOver_eq_foldl (a : Option Head) (hs : List Head) (s : State) :
    State.passOver a hs s = hs.foldl (State.passHead a) s := by
  induction hs generalizing s with
  | nil => rfl
  | cons h hs ih =>
    rw [State.passOver, List.foldl_cons, State.passHead]
    cases s.entryOf h with
    | none => exact ih s
    | some e => exact ih (s.passEntry a e)

/-! ### What a pass leaves of the entries and the sites -/

/-- A pass starts no claim, and keeps the type and the keep-out set of every site. -/
structure Passed (s t : State) : Prop where
  entries : ∀ q ∈ t.queue, ∃ o ∈ s.queue, o.head = q.head ∧ o.claim = q.claim
  typeAt : ∀ n, t.typeAt n = s.typeAt n
  keepOut : ∀ n, t.keepOut n = s.keepOut n
  board : t.board = s.board

namespace Passed

protected theorem refl (s : State) : Passed s s :=
  ⟨fun q mem => ⟨q, mem, rfl, rfl⟩, fun _ => rfl, fun _ => rfl, rfl⟩

protected theorem trans (first : Passed s t) (second : Passed t u) : Passed s u where
  entries := fun q mem => by
    obtain ⟨o, mem', head, claim⟩ := second.entries q mem
    obtain ⟨o', mem'', head', claim'⟩ := first.entries o mem'
    exact ⟨o', mem'', head'.trans head, claim'.trans claim⟩
  typeAt := fun n => (second.typeAt n).trans (first.typeAt n)
  keepOut := fun n => (second.keepOut n).trans (first.keepOut n)
  board := second.board.trans first.board

theorem dropAll (s : State) (a : Option Head) (r : ClaimReason) (es : List QueueEntry) :
    Passed s (s.dropAll a r es) where
  entries := fun q mem => by
    rw [State.dropAll_queue] at mem
    exact ⟨q, List.mem_of_mem_filter mem, rfl, rfl⟩
  typeAt := fun n => by simp [State.typeAt, State.site]
  keepOut := s.dropAll_keepOut a r es
  board := s.dropAll_board a r es

theorem grant (s : State) (e : QueueEntry) (i : Fin 48) (r : TypeRecord) : Passed s (s.grant e i r) where
  entries := fun q mem => by
    rw [State.grant_queue] at mem
    exact ⟨q, List.mem_of_mem_filter mem, rfl, rfl⟩
  typeAt := fun n => by
    have site : (s.grant e i r).site n =
        if n = e.claim.site then (s.site e.claim.site).map (·.claimFor e.head) else s.site n := by
      simp [State.grant, State.eventGranted]
    rw [State.typeAt, site]
    split
    case isTrue same =>
      rw [State.typeAt, same, Option.map_map]
      rfl
    case isFalse => rfl
  keepOut := s.grant_keepOut e i r
  board := s.grant_board e i r

theorem raiseBypass (s : State) (older : List QueueEntry) (n : Fin 96) :
    Passed s (s.raiseBypass older n) where
  entries := fun q mem => by
    obtain ⟨o, mem', rfl⟩ := List.mem_map.1 mem
    refine ⟨o, mem', ?_⟩
    split <;> exact ⟨rfl, rfl⟩
  typeAt := fun _ => rfl
  keepOut := fun _ => rfl
  board := rfl

theorem passEntry (s : State) (a : Option Head) (e : QueueEntry) : Passed s (s.passEntry a e) := by
  obtain ⟨-, h⟩ | ⟨-, -, h⟩ | ⟨i, -, -, -, -, ⟨r, -, h⟩ | ⟨-, h⟩⟩ := s.passEntry_cases a e <;> rw [h]
  · exact dropAll s a .siteChanged [e]
  · exact .refl s
  · exact ((grant s e i r).trans (dropAll _ a _ _)).trans (raiseBypass _ _ _)
  · exact Passed.trans (t := s.setType i _) ⟨fun q mem => ⟨q, mem, rfl, rfl⟩, fun _ => rfl, fun _ => rfl,
      rfl⟩ (dropAll _ a .typeBroken _)

theorem pass (s : State) (a : Option Head) : Passed s (s.pass a) :=
  State.pass_induct a (p := Passed s) (fun u e _ passed => passed.trans (passEntry u a e)) (.refl s)

end Passed

/-! ### One entry of the pass, in the words of the statement -/

section
variable {q : QueueEntry}

theorem State.dropAll_eq_foldl {drop : State → QueueEntry → State} {r : ClaimReason}
    (one : ∀ s d, s.dropEntry a r d = drop s d) (es : List QueueEntry) (s : State) :
    s.dropAll a r es = es.foldl drop s := by
  rw [State.dropAll]
  congr 1
  funext s d
  exact one s d

theorem State.waitingOnType_eq (s : State) (i : Fin 48) : s.waitingOnType i =
    s.queue.filter fun q => (s.site q.claim.site).any fun x => x.typeNo == i := by
  refine List.filter_congr fun q _ => ?_
  rw [State.typeAt]
  cases s.site q.claim.site <;> simp

/-- The counts that rise after a grant (R70, R72). -/
theorem State.raiseBypass_eq {x : SiteEntry} {n : Fin 96} (older : List QueueEntry)
    (keepOut : ∀ m, t.keepOut m = s.keepOut m) (site : s.site n = some x) : t.raiseBypass older n =
      { t with
        queue := t.queue.map fun q =>
          if older.any (fun o => o.head == q.head) ∧ (s.site q.claim.site).any (fun xq =>
              xq.keepOut.any fun z => x.keepOut.contains z) then
            { q with bypass := q.bypass + 1 }
          else q } := by
  have shares (q : QueueEntry) : shareZone (t.keepOut q.claim.site) (t.keepOut n) =
      (s.site q.claim.site).any fun xq => xq.keepOut.any fun z => x.keepOut.contains z := by
    rw [keepOut, keepOut, State.keepOut_of_site site, State.keepOut]
    cases s.site q.claim.site <;> rfl
  simp only [State.raiseBypass, shares, Bool.and_eq_true]

end

/-! ### An older claim that is passed by, and one that stands at the limit -/

/-- The entry that a zone or its type holds back is not grantable. -/
theorem State.not_grantable_of_held {o : QueueEntry} {x : SiteEntry}
    (site : s.site o.claim.site = some x) (held : (∃ z ∈ x.keepOut, ∃ h', s.holder z = some h') ∨
      (s.typeSlot x.typeNo).state = .draining) : s.grantable o = false := by
  refine eq_false_of_ne_true fun grantable => ?_
  obtain ⟨-, ready, zones, -, -⟩ := (s.grantable_iff o).1 grantable
  rw [State.typeStateAt_of_site site] at ready
  rw [State.zonesFree_iff, State.keepOut_of_site site] at zones
  obtain ⟨z, mem, h', holder⟩ | draining := held
  · rw [zones z mem] at holder
    cases holder
  · rw [draining] at ready
    cases ready

section
variable {o q : QueueEntry} {x xo : SiteEntry} {r : StoredRecord}

/-- An older entry that is held back, and the younger one granted: the pass is the younger one's. -/
theorem Joined.pass_of_held (joined : Joined s u q) (queue : s.queue = [o]) (apart : o.head ≠ q.head)
    (site : s.site o.claim.site = some xo) (met : s.meets o.claim = true)
    (held : (∃ z ∈ xo.keepOut, ∃ h', s.holder z = some h') ∨ (s.typeSlot xo.typeNo).state = .draining) :
    u.pass a = u.passEntry a q := by
  have site' : u.site o.claim.site = some xo := (joined.site _).trans site
  have met' : u.meets o.claim = true := by rwa [State.meets, joined.site]
  refine State.pass_pair (by rw [joined.queue, queue]; rfl) apart
    (State.passEntry_of_not_grantable met' (State.not_grantable_of_held site' ?_))
  simpa only [joined.holder, joined.typeSlot] using held

/-- The younger entry at the bypass limit of the older one is not grantable: the pass changes nothing. -/
theorem Joined.pass_at_limit (joined : Joined s u q) (queue : s.queue = [o]) (apart : o.head ≠ q.head)
    (site : s.site o.claim.site = some xo) (met : s.meets o.claim = true)
    (held : (∃ z ∈ xo.keepOut, ∃ h', s.holder z = some h') ∨ (s.typeSlot xo.typeNo).state = .draining)
    (own : s.site q.claim.site = some x) (required : q.claim.requires x)
    (limit : o.bypass = s.board.bypassLimit) (shared : ∃ z ∈ xo.keepOut, z ∈ x.keepOut) : u.pass a = u := by
  have not_grantable : u.grantable q = false := by
    rw [Bool.eq_false_iff, ne_eq, joined.grantable_iff (by simpa [queue] using apart) own required]
    rintro ⟨-, -, -, unblocked⟩
    obtain ⟨z, mem, mem'⟩ := shared
    exact unblocked o (by simp [queue]) limit z (by rwa [State.keepOut_of_site site]) mem'
  rw [joined.pass_of_held queue apart site met held,
    State.passEntry_of_not_grantable (State.meets_of_requires ((joined.site _).trans own) required)
      not_grantable]

/-- The younger entry granted before the older one, whose bypass count rises (R70, R72). -/
theorem Joined.pass_below_limit (joined : Joined s u q) (queue : s.queue = [o]) (apart : o.head ≠ q.head)
    (site : s.site o.claim.site = some xo) (met : s.meets o.claim = true)
    (held : (∃ z ∈ xo.keepOut, ∃ h', s.holder z = some h') ∨ (s.typeSlot xo.typeNo).state = .draining)
    (own : s.site q.claim.site = some x) (required : q.claim.requires x)
    (ready : (s.typeSlot x.typeNo).state = .ready) (active : (s.typeSlot x.typeNo).active = some r)
    (sound : r.sound) (zones : ∀ z ∈ x.keepOut, s.holder z = none)
    (slots : s.records.length + s.reserved < 64) (elsewhere : o.claim.site ≠ q.claim.site)
    (below : o.bypass < s.board.bypassLimit) (shared : ∃ z ∈ xo.keepOut, z ∈ x.keepOut) :
    u.pass a =
      { (u.granted q.head q.claim x r).offer (.head q.head) (u.grantedFrame q.claim x r) with
        queue := [{ o with bypass := o.bypass + 1 }] } := by
  have grantable : u.grantable q = true := by
    rw [joined.grantable_iff (by simpa [queue] using apart) own required]
    refine ⟨ready, zones, slots, fun o' mem limit => ?_⟩
    rw [queue, List.mem_singleton] at mem
    subst mem
    exact absurd limit below.ne
  have own' : u.site q.claim.site = some x := (joined.site _).trans own
  have left : (u.granted q.head q.claim x r).queue = [o] := by
    simp [State.granted, joined.queue, queue, apart]
  have active' : (u.typeSlot x.typeNo).active = some r := by rwa [joined.typeSlot]
  have elsewhere' : ((u.granted q.head q.claim x r).offer (.head q.head)
      (u.grantedFrame q.claim x r)).waitingOnSite q.claim.site = [] := by
    simp [State.waitingOnSite, left, elsewhere]
  have keepOut := u.grant_keepOut q x.typeNo r.fields
  rw [State.grant_of_site own' required active' sound] at keepOut
  rw [joined.pass_of_held queue apart site met held,
    State.passEntry_granted own' required grantable active' sound,
    joined.older (by simpa [queue] using apart), State.afterGrant, elsewhere', State.dropAll_nil,
    State.raiseBypass_eq s.queue keepOut own', State.offer_queue, left, queue]
  obtain ⟨z, mem, mem'⟩ := shared
  simpa [(joined.site _).trans site] using fun none_shared => absurd mem' (none_shared z mem)

end

/-! ### The statement in its parts -/

/-- R69, R70, R72: a claim goes ahead of an older one that is held back, below the bypass limit. -/
theorem exec_claim_below_limit {tag n : Byte} {wait restrike : Bool} {site : Fin 96} {e eo : SiteEntry}
    {r : StoredRecord} {o : QueueEntry} (takes : s.takes (.head h) = true) (number : site.val = n.toNat)
    (queue : s.queue = [o]) (apart : o.head ≠ h) (elsewhere : o.claim.site ≠ site)
    (isOpen : s.board.state = .isOpen) (released : s.estop = false) (idle : s.monitor h = Monitor.idle)
    (entry : s.site site = some e) (required : Claim.requires ⟨site, restrike⟩ e)
    (ready : (s.typeSlot e.typeNo).state = .ready) (active : (s.typeSlot e.typeNo).active = some r)
    (sound : r.sound) (zones : ∀ z ∈ e.keepOut, s.holder z = none)
    (slots : s.records.length + s.reserved < 64) (older : s.site o.claim.site = some eo)
    (met : s.meets o.claim = true)
    (held : (∃ z ∈ eo.keepOut, ∃ h', s.holder z = some h') ∨ (s.typeSlot eo.typeNo).state = .draining)
    (shared : ∃ z ∈ eo.keepOut, z ∈ e.keepOut) (below : o.bypass < s.board.bypassLimit) :
    ∃ t, exec (.claim h tag ([n] ++ flagByte wait ++ flagByte restrike)) s = .next t ∧
      t.queue = [{ o with bypass := o.bypass + 1 }] ∧ (t.monitor h).state = .armed ∧
      t.site site = some { e with state := .claimed h (if restrike then .rejected else .loaded) } ∧
      ∀ z, t.holder z = if z ∈ e.keepOut then some h else s.holder z := by
  have idle' : (s.monitor h).state = .idle := by rw [idle]; rfl
  have unbroken : (s.typeSlot e.typeNo).state ≠ .broken := by rw [ready]; nofun
  have passed {u : State} (joined : Joined s u { head := h, claim := ⟨site, restrike⟩, bypass := 0 })
      (a : Option Head) := joined.pass_below_limit (a := a) queue apart older met held entry required ready
        active sound zones slots elsewhere below shared
  have outcome {u : State} (joined : Joined s u { head := h, claim := ⟨site, restrike⟩, bypass := 0 })
      (a : Option Head) : (u.pass a).queue = [{ o with bypass := o.bypass + 1 }] ∧
        ((u.pass a).monitor h).state = .armed ∧
        (u.pass a).site site = some { e with
          state := .claimed h (if restrike then .rejected else .loaded) } ∧
        ∀ z, (u.pass a).holder z = if z ∈ e.keepOut then some h else s.holder z := by
    rw [passed joined a]
    refine ⟨rfl, ?_, ?_, fun z => ?_⟩
    · show ((u.granted h ⟨site, restrike⟩ e r).monitor h).state = .armed
      rw [State.granted_monitor]
    · simp [State.site, State.granted]
    · rw [← joined.holder z]
      simp [State.holder, State.granted]
  cases wait with
  | true => exact ⟨_, exec_claim_waiting takes number isOpen released idle' entry required unbroken,
      outcome ((Joined.joinedWaiting ..).withReply ..) none⟩
  | false => exact ⟨_, exec_claim_atOnce_armed takes number isOpen released idle' entry required unbroken
      (outcome (.joinQueue ..) _).2.1, outcome ((Joined.joinQueue ..).withReply ..) _⟩

/-- R69, R72: at the bypass limit a claim waits behind the older one, or is refused. -/
theorem exec_claim_at_limit {tag n : Byte} {restrike : Bool} {site : Fin 96} {e eo : SiteEntry}
    {o : QueueEntry} (takes : s.takes (.head h) = true) (number : site.val = n.toNat)
    (queue : s.queue = [o]) (apart : o.head ≠ h)
    (isOpen : s.board.state = .isOpen) (released : s.estop = false) (idle : s.monitor h = Monitor.idle)
    (entry : s.site site = some e) (required : Claim.requires ⟨site, restrike⟩ e)
    (ready : (s.typeSlot e.typeNo).state = .ready) (older : s.site o.claim.site = some eo)
    (met : s.meets o.claim = true)
    (held : (∃ z ∈ eo.keepOut, ∃ h', s.holder z = some h') ∨ (s.typeSlot eo.typeNo).state = .draining)
    (shared : ∃ z ∈ eo.keepOut, z ∈ e.keepOut) (limit : o.bypass = s.board.bypassLimit) :
    exec (.claim h tag ([n, 0] ++ flagByte restrike)) s =
        .next (s.withReply (.head h) 17 tag .zoneBusy []) ∧
      exec (.claim h tag ([n, 1] ++ flagByte restrike)) s = .next ({ s with
        queue := [o, { head := h, claim := { site := site, restrike := restrike }, bypass := 0 }]
        monitors := s.monitors.set h { Monitor.idle with state := .waiting } }.withReply (.head h)
          17 tag .ok [n, 1, 1, 2]) := by
  have idle' : (s.monitor h).state = .idle := by rw [idle]; rfl
  have unbroken : (s.typeSlot e.typeNo).state ≠ .broken := by rw [ready]; nofun
  have all_apart : ∀ o' ∈ s.queue, o'.head ≠ h := by simpa [queue] using apart
  have stays {u : State} (joined : Joined s u { head := h, claim := ⟨site, restrike⟩, bypass := 0 })
      (a : Option Head) : u.pass a = u :=
    joined.pass_at_limit queue apart older met held entry required limit shared
  constructor
  · have standing : (s.joinQueue h ⟨site, restrike⟩).entryOf h =
        some { head := h, claim := ⟨site, restrike⟩, bypass := 0 } := by
      simp [State.entryOf, State.joinQueue, queue, apart]
    have steady : (s.joinQueue h ⟨site, restrike⟩).typeStateAt site ≠ some .draining := by
      rw [State.typeStateAt_of_site (s := s.joinQueue h ⟨site, restrike⟩) (e := e) entry]
      exact fun draining => by
        rw [show (s.typeSlot e.typeNo).state = .draining from Option.some.inj draining] at ready
        cases ready
    have blocked : (s.joinQueue h ⟨site, restrike⟩).blocked
        { head := h, claim := ⟨site, restrike⟩, bypass := 0 } = true := by
      have joined := Joined.joinQueue s h ⟨site, restrike⟩
      obtain ⟨z, mem, mem'⟩ := shared
      rw [State.blocked_iff, joined.older all_apart, queue]
      refine ⟨o, List.mem_singleton_self o, limit, z, ?_, ?_⟩
      · rwa [joined.keepOut, State.keepOut_of_site older]
      · rwa [joined.keepOut, State.keepOut_of_site entry]
    refine (exec_claim_atOnce_refused takes number isOpen released idle' entry required unbroken
      (st := .zoneBusy) ?_ ?_).trans ?_
    · rw [stays (.joinQueue ..)]
      exact fun armed => by rw [show (s.monitor h).state = .armed from armed] at idle'; cases idle'
    · rw [stays (.joinQueue ..), State.missing_standing standing, if_neg steady, if_pos (.inr blocked)]
    · rw [stays ((Joined.joinQueue ..).withReply ..)]
      exact congrArg Host.Outcome.next ((s.withReply (.head h) 17 tag .zoneBusy []).leaveQueue_joinQueue
        (by simpa using all_apart) _)
  · have told : (s.joinedWaiting h ⟨site, restrike⟩).claimBytes h n = [n, 1, 1, 2] := by
      simp [State.claimBytes, State.joinedWaiting, State.monitor, State.queuePosition, State.entryOf,
        queue, beq_false_of_ne apart, List.findIdx_cons, HeadState.code, u8, optField]
    have laid : s.joinedWaiting h ⟨site, restrike⟩ = { s with
        queue := [o, { head := h, claim := { site := site, restrike := restrike }, bypass := 0 }]
        monitors := s.monitors.set h { Monitor.idle with state := .waiting } } := by
      rw [State.joinedWaiting, queue, idle]
      rfl
    rw [← laid]
    refine (exec_claim_waiting takes number isOpen released idle' entry required unbroken).trans ?_
    rw [stays (.joinedWaiting ..), told, stays ((Joined.joinedWaiting ..).withReply ..)]

/-! ### The clauses of one entry of the pass (R70, R72, R74) -/

/-- A drop with its reason, as the statement writes it. -/
def State.dropped (a : Option Head) (reason : Byte) (s : State) (d : QueueEntry) : State :=
  let gone : State := { s with
    queue := s.queue.filter fun q => !(q.head == d.head)
    monitors := s.monitors.set d.head Monitor.idle }
  if a = some d.head then gone
  else gone.offer (.head d.head) (eventFrame 65 (u8 d.claim.site.val ++ [reason]))

theorem State.dropEntry_siteChanged (a : Option Head) (s : State) (d : QueueEntry) :
    s.dropEntry a .siteChanged d = s.dropped a 0 d :=
  State.dropEntry_eq (r := .siteChanged) nofun s a d

theorem State.dropEntry_typeBroken (a : Option Head) (s : State) (d : QueueEntry) :
    s.dropEntry a .typeBroken d = s.dropped a 1 d :=
  State.dropEntry_eq (r := .typeBroken) nofun s a d

section
variable {q : QueueEntry} {x : SiteEntry} {r : StoredRecord}

/-- The five conditions of R69, the zones of the older entries read at their sites. -/
theorem State.grantable_iff_of_site (site : s.site q.claim.site = some x) (required : q.claim.requires x) :
    s.grantable q = true ↔ (s.typeSlot x.typeNo).state = .ready ∧
      (∀ z ∈ x.keepOut, s.holder z = none) ∧ s.records.length + s.reserved < 64 ∧
      ∀ o ∈ s.queue.takeWhile fun o => !(o.head == q.head), o.bypass = s.board.bypassLimit →
        ∀ xo, s.site o.claim.site = some xo → ∀ z ∈ xo.keepOut, z ∉ x.keepOut := by
  rw [State.grantable_of_site site required]
  have zones (o : QueueEntry) : (∀ z ∈ s.keepOut o.claim.site, z ∉ x.keepOut) ↔
      ∀ xo, s.site o.claim.site = some xo → ∀ z ∈ xo.keepOut, z ∉ x.keepOut := by
    simp only [mem_keepOut_iff]
    exact ⟨fun apart xo site z mem => apart z ⟨xo, site, mem⟩,
      fun apart z ⟨xo, site, mem⟩ => apart xo site z mem⟩
  simp only [State.olderThan, zones]

/-- A granted entry: the other claims on its site dropped, the older ones that share a zone passed by. -/
theorem State.passEntry_granted_eq (site : s.site q.claim.site = some x) (required : q.claim.requires x)
    (grantable : s.grantable q = true) (active : (s.typeSlot x.typeNo).active = some r)
    (sound : r.sound) :
    let granted := (s.granted q.head q.claim x r).offer (.head q.head) (s.grantedFrame q.claim x r)
    let others :=
      (granted.queue.filter fun o => o.claim.site == q.claim.site).foldl (State.dropped a 0) granted
    s.passEntry a q = { others with
      queue := others.queue.map fun o =>
        if (s.queue.takeWhile fun o => !(o.head == q.head)).any (fun o' => o'.head == o.head) ∧
            (s.site o.claim.site).any (fun xq => xq.keepOut.any fun z => x.keepOut.contains z) then
          { o with bypass := o.bypass + 1 }
        else o } := by
  intro granted others
  have left : granted.dropAll a .siteChanged (granted.waitingOnSite q.claim.site) = others :=
    State.dropAll_eq_foldl (State.dropEntry_siteChanged a) _ granted
  have keepOut (n : Fin 96) : others.keepOut n = s.keepOut n := by
    rw [← left, State.dropAll_keepOut, ← s.grant_keepOut q x.typeNo r.fields n,
      State.grant_of_site site required active sound]
  rw [State.passEntry_granted site required grantable active sound, State.afterGrant, left,
    State.raiseBypass_eq _ keepOut site, State.olderThan]

/-- An entry whose type's read fails: the claims waiting on the type dropped. -/
theorem State.passEntry_broken_eq (site : s.site q.claim.site = some x) (required : q.claim.requires x)
    (grantable : s.grantable q = true) (active : (s.typeSlot x.typeNo).active = some r)
    (damaged : ¬ r.sound) : s.passEntry a q =
      (s.queue.filter fun o => (s.site o.claim.site).any fun xq => xq.typeNo == x.typeNo).foldl
        (State.dropped a 1) (s.setType x.typeNo { s.typeSlot x.typeNo with
          state := .broken, active := some r.corrected
          faults := min ((s.typeSlot x.typeNo).faults + r.correctable) 255 }) := by
  rw [State.passEntry_broken site required grantable active damaged, State.dropBroken,
    State.dropAll_eq_foldl (State.dropEntry_typeBroken a), State.waitingOnType_eq]
  rfl

end

/-! ### A claim not to wait that its pass does not grant (R68) -/

section
variable {tag n : Byte} {restrike : Bool} {site : Fin 96} {e : SiteEntry}

/-- The entry that stands after the pass is the claim's own. -/
theorem Passed.entry_of_joinQueue {c : Claim} (passed : Passed (s.joinQueue h c) t)
    (apart : ∀ q ∈ s.queue, q.head ≠ h) {q : QueueEntry} (mem : q ∈ t.queue) (own : q.head = h) :
    q.claim = c := by
  obtain ⟨o, mem', head, claim⟩ := passed.entries q mem
  obtain old | new := List.mem_append.1 mem'
  · exact absurd (head.trans own) (apart o old)
  · rw [← claim, List.mem_singleton.1 new]

theorem State.entryOf_eq_none_iff : s.entryOf h = none ↔ ¬ ∃ q ∈ s.queue, q.head = h := by
  simp [State.entryOf]

/-- The first condition that the claim misses after its pass (R68, R69), in the words of the statement. -/
theorem Passed.missing_of_joinQueue {site : Fin 96} {restrike : Bool} {e : SiteEntry}
    (passed : Passed (s.joinQueue h ⟨site, restrike⟩) t)
    (apart : ∀ q ∈ s.queue, q.head ≠ h) (entry : s.site site = some e) :
    let stands := ∃ q ∈ t.queue, q.head = h
    let required := ∃ x, t.site site = some x ∧ Claim.requires ⟨site, restrike⟩ x
    let draining := (t.typeSlot e.typeNo).state = .draining
    let zone := (∃ z ∈ e.keepOut, ∃ h', t.holder z = some h') ∨
      ∃ o ∈ t.queue.takeWhile (fun o => !(o.head == h)), o.bypass = s.board.bypassLimit ∧
        ∃ xo, t.site o.claim.site = some xo ∧ ∃ z ∈ xo.keepOut, z ∈ e.keepOut
    let full := 64 ≤ t.records.length + t.reserved
    (¬ stands → ¬ required → t.missing h ⟨site, restrike⟩ = .siteState) ∧
    (¬ stands → required → t.missing h ⟨site, restrike⟩ = .typeBroken) ∧
    (stands → draining → t.missing h ⟨site, restrike⟩ = .typeDraining) ∧
    (stands → ¬ draining → zone → t.missing h ⟨site, restrike⟩ = .zoneBusy) ∧
    (stands → ¬ draining → ¬ zone → full → t.missing h ⟨site, restrike⟩ = .noRecordSpace) := by
  intro stands required draining zone full
  have met : t.meets ⟨site, restrike⟩ = true ↔ required := t.meets_iff _
  have keepOut : t.keepOut site = e.keepOut :=
    (passed.keepOut site).trans (State.keepOut_of_site (s := s) entry)
  have typeState : t.typeStateAt site = some .draining ↔ draining := by
    have typeAt : t.typeAt site = some e.typeNo :=
      (passed.typeAt site).trans (by rw [State.typeAt]; exact congrArg (Option.map _) entry)
    rw [State.typeStateAt, typeAt, Option.map_some, Option.some_inj]
  have gone (absent : ¬ stands) := State.missing_gone (c := ⟨site, restrike⟩)
    (State.entryOf_eq_none_iff.2 absent)
  refine ⟨fun absent lost => ?_, fun absent stays => ?_, ?_⟩
  · rw [gone absent, if_neg (mt met.1 lost)]
  · rw [gone absent, if_pos (met.2 stays)]
  by_cases standing : stands
  · obtain ⟨q, found⟩ := Option.ne_none_iff_exists'.1
      (fun none_of => State.entryOf_eq_none_iff.1 none_of standing : t.entryOf h ≠ none)
    have mem : q ∈ t.queue := List.mem_of_find?_eq_some found
    have own : q.head = h := by simpa using List.find?_some found
    have claim := passed.entry_of_joinQueue apart mem own
    have held : t.zonesFree site = false ∨ t.blocked q ↔ zone := by
      refine or_congr ?_ ?_
      · rw [← Bool.not_eq_true, State.zonesFree_iff, keepOut]
        simp only [not_forall, ← Option.ne_none_iff_exists']
        simp
      · rw [State.blocked_iff, claim, keepOut, passed.board, State.olderThan, own]
        simp only [mem_keepOut_iff]
        refine exists_congr fun o => and_congr_right fun _ => and_congr_right fun _ => ?_
        exact ⟨fun ⟨z, ⟨xo, site, mem⟩, mem'⟩ => ⟨xo, site, z, mem, mem'⟩,
          fun ⟨xo, site, z, mem, mem'⟩ => ⟨z, ⟨xo, site, mem⟩, mem'⟩⟩
    have slotless : t.slotFree = false ↔ full := by
      rw [← Bool.not_eq_true, State.slotFree_iff]
      exact Nat.not_lt
    rw [State.missing_standing found]
    exact ⟨fun _ drains => if_pos (typeState.2 drains),
      fun _ steady busy => (if_neg (mt typeState.1 steady)).trans (if_pos (held.2 busy)),
      fun _ steady free none_free => (if_neg (mt typeState.1 steady)).trans
        ((if_neg (mt held.1 free)).trans (if_pos (slotless.2 none_free)))⟩
  · exact ⟨fun h => absurd h standing, fun h => absurd h standing, fun h => absurd h standing⟩

end

/-- Settles O30: the older entry held back is left by the pass, so the outcome turns on the younger one;
one entry, the whole pass and the answer of a claim are each taken apart above. -/
theorem bypassLimitGuardsOlderClaims : Obligations.BypassLimitGuardsOlderClaims := by
  refine ⟨?_, ?_, ?_, ?_, ?_⟩
  · intro h tag n wait restrike site e eo r o s takes number queue apart elsewhere isOpen released idle
      entry required ready active _ sound zones slots older met held shared
    have requires : Claim.requires ⟨site, restrike⟩ e := required
    have limit (at_limit : o.bypass = s.board.bypassLimit) := exec_claim_at_limit (tag := tag) takes
      number queue apart isOpen released idle entry requires ready older met held shared at_limit
    refine ⟨fun below => exec_claim_below_limit takes number queue apart elsewhere isOpen released idle
      entry requires ready active sound zones slots older met held shared below, ?_, ?_⟩
    · rintro at_limit rfl
      exact (limit at_limit).1
    · rintro at_limit rfl
      exact (limit at_limit).2
  · intro a q s after drop older required grantable
    refine ⟨fun lost => ?_, fun x site requires => ?_⟩
    · exact (State.passEntry_of_lost (State.not_meets lost)).trans (State.dropEntry_siteChanged a s q)
    have requires' : q.claim.requires x := requires
    have grantable_iff : s.grantable q = true ↔ grantable x := State.grantable_iff_of_site site requires'
    refine ⟨fun not_yet => ?_, fun r now active _ sound => ?_, fun r now active damaged => ?_⟩
    · exact State.passEntry_of_not_grantable (State.meets_of_requires site requires')
        (eq_false_of_ne_true (mt grantable_iff.1 not_yet))
    · exact State.passEntry_granted_eq site requires' (grantable_iff.2 now) active sound
    · exact State.passEntry_broken_eq site requires' (grantable_iff.2 now) active damaged
  · intro a s
    rw [State.pass, State.passOver_eq_foldl]
    congr 1
    funext t h
    rw [State.passHead, State.entryOf]
    cases t.queue.find? (·.head == h) <;> rfl
  · intro h tag n restrike site e s takes number isOpen released idle entry required unbroken
    exact exec_claim_waiting takes number isOpen released idle entry required unbroken
  · intro h tag n restrike site e s takes number isOpen released idle apart entry required unbroken joined
      passed command refused stands required' draining zone full
    refine ⟨fun armed => ?_, fun unarmed => ?_⟩
    · have code : u8 (passed.monitor h).state.code = [2] := by rw [armed]; rfl
      refine (exec_claim_atOnce_armed takes number isOpen released idle entry required unbroken
        armed).trans ?_
      exact congrArg (fun bytes => Host.Outcome.next ((joined.withReply (.head h) 17 tag .ok
        ([n] ++ bytes ++ optField 1 ((passed.queuePosition h).map u8))).pass (some h))) code
    · have answer (st : Status) (missing : passed.missing h ⟨site, restrike⟩ = st) : refused st :=
        exec_claim_atOnce_refused takes number isOpen released idle entry required unbroken unarmed missing
      obtain ⟨lost, broken, drains, busy, none_free⟩ := (Passed.pass joined (some h)).missing_of_joinQueue
        apart entry
      exact ⟨fun absent no => answer _ (lost absent no), fun absent yes => answer _ (broken absent yes),
        fun here d => answer _ (drains here d), fun here d z => answer _ (busy here d z),
        fun here d z f => answer _ (none_free here d z f)⟩

end Sys2Proof.Machine
end

section
/-! The places of the fields in the sensing values of a head and in the reply of READ_SITE (sections 9.7
and 9.9): for obligation O49. -/

namespace Sys2Proof.Machine

/-! ### Numbers of enumerations fit their byte -/

theorem HeadState.code_lt (st : HeadState) : st.code < 256 := by cases st <;> decide
theorem BoardState.code_lt (st : BoardState) : st.code < 256 := by cases st <;> decide
theorem TareState.code_lt (st : TareState) : st.code < 256 := by cases st <;> decide
theorem Period.code_lt (p : Period) : p.code < 256 := by cases p <;> decide
theorem StabilityTime.code_lt (t : StabilityTime) : t.code < 256 := by cases t <;> decide
theorem SiteState.code_lt (st : SiteState) : st.code < 256 := by cases st <;> simp [SiteState.code]
theorem bit_lt (b : Bool) : b.toNat < 256 := by cases b <;> decide

/-! ### Reading at a place -/

theorem length_u8 (n : Nat) : (u8 n).length = 1 := rfl
theorem length_u16 (n : Nat) : (u16 n).length = 2 := rfl

/-- Four bytes read back are the number sent, modulo 2^32. -/
theorem u32_read_mod (n : Nat) :
    ((BitVec.ofNat 8 (n / 16777216)).toNat * 256 + (BitVec.ofNat 8 (n / 65536)).toNat) * 65536
      + ((BitVec.ofNat 8 (n / 256)).toNat * 256 + (BitVec.ofNat 8 n).toNat) = n % 4294967296 := by
  simp only [u8_read_mod]
  omega

/-- What comes after a field whose width is known. -/
theorem drop_past {p xs rest : List Byte} {i width : Nat} (place : p.drop i = xs ++ rest)
    (length : xs.length = width) : p.drop (i + width) = rest := by
  rw [← List.drop_drop, place, List.drop_left' length]

/-- A run of one-byte entries, each read at its place. -/
theorem at8_bytes {α : Type} {p rest : List Byte} {xs : List α} {f : α → Nat} {i k : Nat} {x : α}
    (place : p.drop i = (xs.map fun x => u8 (f x)).flatten ++ rest) (entry : xs[k]? = some x)
    (small : f x < 256) : at8 p (i + k) = f x := by
  have bytes (ys : List α) :
      (ys.map fun x => u8 (f x)).flatten = ys.map fun x => BitVec.ofNat 8 (f x) := by
    induction ys with
    | nil => rfl
    | cons y ys ih => exact congrArg (BitVec.ofNat 8 (f y) :: ·) ih
  have short : k < (xs.map fun x => BitVec.ofNat 8 (f x)).length := by
    rw [List.length_map]
    exact (List.getElem?_eq_some_iff.1 entry).1
  rw [← at8_drop, place, bytes, at8, List.getElem?_append_left short, List.getElem?_map, entry]
  exact u8_read small

theorem length_bytes {α : Type} (xs : List α) (f : α → Nat) :
    (xs.map fun x => u8 (f x)).flatten.length = xs.length := by
  simp [u8, List.length_flatten, Function.comp_def]

/-- An optional field: its presence byte, then the field or its zeros. -/
theorem optField_eq (width : Nat) (o : Option (List Byte)) :
    optField width o = u8 o.isSome.toNat ++ slotField width o := by
  cases o <;> rfl

/-! ### The sensing values of a head (R19, R176) -/

/-- The sensing values, every field a number of its width. -/
theorem sensingBytes_eq (f : FrontEnd) : sensingBytes f =
    u32 (signed32 f.latest.gross) ++ (u32 (signed32 f.latest.net) ++
    (u32 (signed32 f.latest.position) ++ (u8 (packBits [f.latest.corners.c0.noisy,
        f.latest.corners.c1.noisy, f.latest.corners.c2.noisy, f.latest.corners.c3.noisy,
        f.latest.corners.c0.saturated, f.latest.corners.c1.saturated, f.latest.corners.c2.saturated,
        f.latest.corners.c3.saturated]) ++
    (u8 f.latest.tilt.isSome.toNat ++ (u16 ((f.latest.tilt.map fun i => min i 65535).getD 0) ++
    (u8 (noiseRunsByte f.corners) ++ (u32 (signed32 f.tare.value) ++ (u8 f.tare.state.code ++
    (u8 (packBits [f.homed, f.encoderFault]) ++
    (u16 f.corners.c0.gain ++ (u16 f.corners.c1.gain ++ (u16 f.corners.c2.gain ++
    (u16 f.corners.c3.gain ++ (u16 f.noiseLimit ++ (u16 f.hysteresis ++
      u8 f.stability.code))))))))))))))) := by
  simp only [sensingBytes, s32_eq, optField_eq, slotField_tiltBytes, Option.isSome_map,
    List.append_assoc]
  rfl

theorem length_sensingBytes (f : FrontEnd) : (sensingBytes f).length = 36 := by
  rw [sensingBytes_eq]
  rfl

/-- The forces, the position, the marks and the tilt, each read at its place. -/
theorem sensingBytes_latest (f : FrontEnd) :
    let b := sensingBytes f
    let marks := f.latest.corners
    at32 b 0 = signed32 f.latest.gross ∧ at32 b 4 = signed32 f.latest.net ∧
    at32 b 8 = signed32 f.latest.position ∧
    at8 b 12 = marks.c0.noisy.toNat + 2 * marks.c1.noisy.toNat + 4 * marks.c2.noisy.toNat
      + 8 * marks.c3.noisy.toNat + 16 * marks.c0.saturated.toNat + 32 * marks.c1.saturated.toNat
      + 64 * marks.c2.saturated.toNat + 128 * marks.c3.saturated.toNat ∧
    at8 b 13 = f.latest.tilt.isSome.toNat ∧
    at16 b 14 = (f.latest.tilt.map fun i => min i 65535).getD 0 := by
  have tilt : (f.latest.tilt.map fun i => min i 65535).getD 0 < 65536 :=
    getD_map_lt _ (fun i => by omega) (by decide)
  rw [sensingBytes_eq]
  exact ⟨u32_read (signed32_lt _), u32_read (signed32_lt _), u32_read (signed32_lt _),
    (u8_read (packBits_lt_byte le_rfl)).trans (presence_eq ..), u8_read (bit_lt _), u16_read tilt⟩

/-- The noise runs, the tare, the flags and the configuration, each read at its place. -/
theorem sensingBytes_standing (f : FrontEnd) :
    let b := sensingBytes f
    (f.corners.c0.noiseRun ≤ 3 → f.corners.c1.noiseRun ≤ 3 → f.corners.c2.noiseRun ≤ 3 →
      f.corners.c3.noiseRun ≤ 3 → at8 b 16 = noiseRunsByte f.corners) ∧
    at32 b 17 = signed32 f.tare.value ∧ at8 b 21 = f.tare.state.code ∧
    at8 b 22 = f.homed.toNat + 2 * f.encoderFault.toNat ∧
    at16 b 23 = f.corners.c0.gain % 65536 ∧ at16 b 25 = f.corners.c1.gain % 65536 ∧
    at16 b 27 = f.corners.c2.gain % 65536 ∧ at16 b 29 = f.corners.c3.gain % 65536 ∧
    at16 b 31 = f.noiseLimit % 65536 ∧ at16 b 33 = f.hysteresis % 65536 ∧
    at8 b 35 = f.stability.code := by
  rw [sensingBytes_eq]
  refine ⟨fun run0 run1 run2 run3 => u8_read ?_, u32_read (signed32_lt _), u8_read (TareState.code_lt _),
    u8_read (packBits_lt_byte (by decide : 2 ≤ 8)), u16_read_mod _, u16_read_mod _, u16_read_mod _,
    u16_read_mod _, u16_read_mod _, u16_read_mod _, u8_read (StabilityTime.code_lt _)⟩
  unfold noiseRunsByte
  omega

/-! ### A site (R48, R54) -/

/-- The last outcome of a site as it is sent. -/
theorem lastField_places {o : Option LastOutcome} {p rest : List Byte}
    (place : p = optField 3 (o.map lastOutcomeBytes) ++ rest) :
    at8 p 0 = o.isSome.toNat ∧
    (o = none ∨ o = some .pass → at8 p 1 = 0 ∧ at8 p 2 = 0 ∧ at8 p 3 = 0) ∧
    (∀ f, o = some (.reject f) → at8 p 1 = 1 ∧
      at8 p 2 = f.bandHigh.toNat + 2 * f.bandLow.toNat + 4 * f.groupLow.toNat
        + 8 * f.groupHigh.toNat ∧ at8 p 3 = 0) ∧
    ∀ c, o = some (.abort c) → at8 p 1 = 2 ∧ at8 p 2 = 0 ∧ at8 p 3 = c.code := by
  subst place
  refine ⟨?_, ?_, ?_, ?_⟩
  · cases o <;> rfl
  · rintro (rfl | rfl) <;> exact ⟨rfl, rfl, rfl⟩
  · rintro f rfl
    exact ⟨rfl, (u8_read f.code_lt).trans f.code_eq, rfl⟩
  · rintro c rfl
    exact ⟨rfl, rfl, u8_read c.code_lt⟩

theorem length_lastField (o : Option LastOutcome) : (optField 3 (o.map lastOutcomeBytes)).length = 4 := by
  obtain _ | _ | _ | _ := o <;> rfl

/-- The seated depth of a site as it is sent. -/
theorem depthField_places {st : SiteState} {p rest : List Byte}
    (place : p = optField 4 (st.depth.map s32) ++ rest) :
    (∀ d, st = .seated d → at8 p 0 = 1 ∧ at32 p 1 = signed32 d) ∧
    ((∀ d, st ≠ .seated d) → at8 p 0 = 0 ∧ at32 p 1 = 0) := by
  subst place
  constructor
  · rintro d rfl
    refine ⟨rfl, ?_⟩
    rw [SiteState.depth, Option.map_some, s32_eq]
    exact u32_read (signed32_lt d)
  · intro unseated
    have absent : st.depth = none := by
      cases st with
      | seated d => exact absurd rfl (unseated d)
      | _ => rfl
    rw [absent]
    exact ⟨rfl, (u32_read (by decide) : at32 (u8 0 ++ (u32 0 ++ rest)) 1 = 0)⟩

theorem length_depthField (st : SiteState) : (optField 4 (st.depth.map s32)).length = 5 := by
  cases st <;> rfl

/-- The holder of a site and its state at grant as they are sent. -/
theorem holderFields_places {st : SiteState} {p rest : List Byte}
    (place : p = (optField 1 (st.held.map fun p => u8 (headNo p.1)) ++
      optField 1 (st.held.map fun p => u8 p.2.code)) ++ rest) :
    (∀ h g, st = .claimed h g ∨ st = .pressing h g →
      at8 p 0 = 1 ∧ at8 p 1 = headNo h ∧ at8 p 2 = 1 ∧
      (g = .loaded → at8 p 3 = 2) ∧ (g = .rejected → at8 p 3 = 6)) ∧
    ((∀ h g, st ≠ .claimed h g ∧ st ≠ .pressing h g) →
      at8 p 0 = 0 ∧ at8 p 1 = 0 ∧ at8 p 2 = 0 ∧ at8 p 3 = 0) := by
  subst place
  constructor
  · intro h g holds
    have held : st.held = some (h, g) := by obtain rfl | rfl := holds <;> rfl
    rw [held]
    exact ⟨rfl, u8_read (headNo_lt h), rfl, by rintro rfl; rfl, by rintro rfl; rfl⟩
  · intro free
    have absent : st.held = none := by
      cases st with
      | claimed h g => exact absurd rfl (free h g).1
      | pressing h g => exact absurd rfl (free h g).2
      | _ => rfl
    rw [absent]
    exact ⟨rfl, rfl, rfl, rfl⟩

theorem length_holderFields (st : SiteState) : (optField 1 (st.held.map fun p => u8 (headNo p.1)) ++
    optField 1 (st.held.map fun p => u8 p.2.code)).length = 4 := by
  cases st <;> rfl

theorem SiteEntry.restrikeEligible_eq (e : SiteEntry) : e.restrikeEligible =
    decide (e.state = .rejected ∧ e.last = some (.abort .depthLimit) ∧ e.attempts < 3) := by
  rw [Bool.eq_iff_iff, SiteEntry.restrikeEligible_iff, decide_eq_true_iff]

/-- The reply of READ_SITE for a defined site, in its runs. -/
theorem siteBytes_some (n : Fin 96) (e : SiteEntry) : siteBytes n (some e) =
    (u8 n.val ++ u8 e.state.code ++ u8 1 ++ u8 e.typeNo.val ++ u8 1 ++ u16 e.x ++ u16 e.y ++ u8 1 ++
      u8 e.keepOut.length) ++ ((e.keepOut.map fun z => u8 z.val).flatten ++ ((u8 1 ++ u8 e.attempts) ++
      (optField 3 (e.last.map lastOutcomeBytes) ++ (optField 4 (e.state.depth.map s32) ++
      ((optField 1 (e.state.held.map fun p => u8 (headNo p.1)) ++
        optField 1 (e.state.held.map fun p => u8 p.2.code)) ++ flagByte e.restrikeEligible))))) := by
  simp only [siteBytes, siteCode, optField, Option.map_some, Option.bind_some, Option.any_some, listField,
    List.length_map, List.append_assoc, u8, u16, List.cons_append, List.nil_append]
  rfl

/-- The places in READ_SITE's reply, run after run. -/
theorem siteLaid (n : Fin 96) (e : SiteEntry) : SiteLaid n e (siteBytes n (some e)) := by
  have whole := siteBytes_some n e
  have zones : (siteBytes n (some e)).drop 11 = _ := drop_past (i := 0) whole rfl
  have attempts := drop_past zones (length_bytes e.keepOut (·.val))
  have last := drop_past (width := 2) attempts rfl
  have depth := drop_past last (length_lastField _)
  have holder := drop_past depth (length_depthField _)
  have eligible := drop_past holder (length_holderFields _)
  refine ⟨?_, ?_, ?_, ?_, ?_, ?_, ?_, ?_⟩
  · have held := length_holderFields e.state
    rw [List.length_append] at held
    simp only [whole, List.length_append, length_bytes, length_lastField, length_depthField, length_u8,
      length_u16, flagByte]
    omega
  · rw [whole]
    exact ⟨u8_read (by omega), u8_read e.state.code_lt, rfl, u8_read (by omega), rfl, u16_read_mod _,
      u16_read_mod _⟩
  · refine ⟨by rw [whole]; rfl, by rw [whole]; exact u8_read_mod _, fun i z entry => ?_⟩
    exact at8_bytes zones entry (by omega)
  · have fields (k : Nat) := at8_drop (siteBytes n (some e)) (11 + e.keepOut.length) k
    rw [attempts] at fields
    exact ⟨(fields 0).symm, (fields 1).symm.trans (u8_read_mod _)⟩
  · have places := lastField_places last
    simp only [at8_drop] at places
    exact places
  · have places := depthField_places depth
    simp only [at8_drop, at32_drop] at places
    exact places
  · have places := holderFields_places holder
    simp only [at8_drop] at places
    exact places
  · have flag := at8_drop (siteBytes n (some e)) (11 + e.keepOut.length + 2 + 4 + 5 + 4) 0
    rw [eligible, SiteEntry.restrikeEligible_eq] at flag
    rw [show 26 + e.keepOut.length = 11 + e.keepOut.length + 2 + 4 + 5 + 4 + 0 by omega, ← flag]
    exact u8_read (bit_lt _)

end Sys2Proof.Machine
end

section
/-! The places of the fields in the STATUS replies (sections 5.9 and 9.7), and the requests that report:
obligation O49. -/

namespace Sys2Proof.Machine

variable {s : State} {h : Head}

/-! ### The fields the two STATUS replies share -/

/-- A claim as it is sent. -/
theorem claimField_places {o : Option Claim} {p rest : List Byte}
    (place : p = optField 2 (o.map claimBytes) ++ rest) :
    (o = none → at8 p 0 = 0 ∧ at8 p 1 = 0 ∧ at8 p 2 = 0) ∧
    ∀ c, o = some c → at8 p 0 = 1 ∧ at8 p 1 = c.site.val ∧ at8 p 2 = c.restrike.toNat := by
  subst place
  constructor
  · rintro rfl
    exact ⟨rfl, rfl, rfl⟩
  · rintro c rfl
    exact ⟨rfl, u8_read (by omega), u8_read (bit_lt _)⟩

theorem length_claimField (o : Option Claim) : (optField 2 (o.map claimBytes)).length = 3 := by
  cases o <;> rfl

/-- The primary cause of a head as it is sent. -/
theorem causeField_places {m : Monitor} {p rest : List Byte}
    (place : p = optField 1 ((primaryCause m).map fun c => u8 c.code) ++ rest) :
    (m.state ≠ .halted → at8 p 0 = 0 ∧ at8 p 1 = 0) ∧
    ∀ k a, m.state = .halted → m.stroke = some k → k.abort = some a →
      at8 p 0 = 1 ∧ at8 p 1 = a.primary.code := by
  subst place
  constructor
  · intro unhalted
    rw [primaryCause, if_neg unhalted]
    exact ⟨rfl, rfl⟩
  · intro k a halted stroke abort
    have cause : primaryCause m = some a.primary := by
      rw [primaryCause, if_pos halted, stroke, Option.bind_some, abort]
      rfl
    rw [cause]
    exact ⟨rfl, u8_read a.primary.code_lt⟩

theorem length_causeField (m : Monitor) :
    (optField 1 ((primaryCause m).map fun c => u8 c.code)).length = 2 := by
  cases primaryCause m <;> rfl

/-! ### The queue's entry of a head -/

theorem State.entryOf_of_absent (absent : ∀ e ∈ s.queue, e.head ≠ h) : s.entryOf h = none := by
  simpa [State.entryOf] using absent

/-- The first entry of a head in the queue is its entry, and its place there is its position. -/
theorem State.entryOf_of_first {i : Nat} {e : QueueEntry} (entry : s.queue[i]? = some e)
    (own : e.head = h) (first : ∀ j e', j < i → s.queue[j]? = some e' → e'.head ≠ h) :
    s.entryOf h = some e ∧ s.queuePosition h = some (i + 1) := by
  obtain ⟨short, rfl⟩ := List.getElem?_eq_some_iff.1 entry
  have others (j : Nat) (lt : j < i) : (s.queue[j].head == h) = false :=
    beq_false_of_ne (first j _ lt (List.getElem?_eq_getElem _))
  have found : s.entryOf h = some s.queue[i] :=
    List.find?_eq_some_iff_getElem.2 ⟨beq_iff_eq.2 own, i, short, rfl, fun j lt => by
      simp [others j lt]⟩
  have index : s.queue.findIdx (·.head == h) = i :=
    (List.findIdx_eq short).2 ⟨beq_iff_eq.2 own, others⟩
  refine ⟨found, ?_⟩
  rw [State.queuePosition, found, index]
  rfl

/-! ### STATUS on a head link (R104) -/

/-- The type and part of a working copy as they are sent. -/
theorem copyField_places {o : Option WorkingCopy} {p rest : List Byte}
    (place : p = optField 5 (o.map fun w => u8 w.typeNo.val ++ u32 w.fields.partCode.toNat) ++ rest) :
    at8 p 0 = o.isSome.toNat ∧ at8 p 1 = (o.map fun w => w.typeNo.val).getD 0 ∧
    at32 p 2 = (o.map fun w => w.fields.partCode.toNat).getD 0 := by
  subst place
  cases o with
  | none => exact ⟨rfl, rfl, (u32_read (by decide) : at32 (u8 0 ++ (u8 0 ++ (u32 0 ++ rest))) 2 = 0)⟩
  | some w => exact ⟨rfl, u8_read (by omega), u32_read w.fields.partCode.isLt⟩

theorem length_copyField (o : Option WorkingCopy) :
    (optField 5 (o.map fun w => u8 w.typeNo.val ++ u32 w.fields.partCode.toNat)).length = 6 := by
  cases o <;> rfl

/-- An optional number of two bytes as it is sent. -/
theorem wordField_places {o : Option Nat} {f : Nat → Nat} {p rest : List Byte}
    (place : p = optField 2 (o.map fun n => u16 (f n)) ++ rest) :
    at8 p 0 = o.isSome.toNat ∧ at16 p 1 = (o.map fun n => f n % 65536).getD 0 := by
  subst place
  cases o with
  | none => exact ⟨rfl, (u16_read_mod 0 : at16 (u8 0 ++ (u16 0 ++ rest)) 1 = 0)⟩
  | some n => exact ⟨rfl, u16_read_mod _⟩

theorem length_wordField (o : Option Nat) (f : Nat → Nat) :
    (optField 2 (o.map fun n => u16 (f n))).length = 3 := by
  cases o <;> rfl

/-- The stroke progress, every field a number of its width. -/
theorem progressBytes_eq (st : HeadState) (k : Stroke) : progressBytes st k =
    u32 k.count ++ (u8 k.contactPosition.isSome.toNat ++
    (u32 ((k.contactPosition.map signed32).getD 0) ++ (u8 k.seatDepth.isSome.toNat ++
    (u32 ((k.seatDepth.map signed32).getD 0) ++
    optField 4 (if st = .seating then some (u32 k.dwell) else none))))) := by
  simp only [progressBytes, optField_eq 4 (Option.map _ _), slotField_s32, Option.isSome_map,
    List.append_assoc]

/-- The stroke progress as it is sent. -/
theorem strokeField_places {st : HeadState} {o : Option Stroke} {p rest : List Byte}
    (place : p = optField 19 (o.map (progressBytes st)) ++ rest) :
    (o = none → p.take 20 = List.replicate 20 0) ∧
    ∀ k, o = some k → at8 p 0 = 1 ∧ at32 p 1 = k.count % 4294967296 ∧
      at8 p 5 = k.contactPosition.isSome.toNat ∧
      at32 p 6 = (k.contactPosition.map signed32).getD 0 ∧
      at8 p 10 = k.seatDepth.isSome.toNat ∧ at32 p 11 = (k.seatDepth.map signed32).getD 0 ∧
      (st = .seating → at8 p 15 = 1 ∧ at32 p 16 = k.dwell % 4294967296) ∧
      (st ≠ .seating → at8 p 15 = 0 ∧ at32 p 16 = 0) := by
  subst place
  constructor
  · rintro rfl
    rfl
  · rintro k rfl
    have signed (o : Option Int) := u32_read (getD_map_lt o signed32_lt (by decide))
    rw [Option.map_some, progressBytes_eq]
    refine ⟨rfl, u32_read_mod _, u8_read (bit_lt _), signed _, u8_read (bit_lt _), signed _,
      fun seating => ?_, fun unseated => ?_⟩
    · rw [if_pos seating]
      exact ⟨rfl, u32_read_mod _⟩
    · rw [if_neg unseated]
      exact ⟨rfl, u32_read_mod 0⟩

theorem length_strokeField (st : HeadState) (o : Option Stroke) :
    (optField 19 (o.map (progressBytes st))).length = 20 := by
  cases o with
  | none => rfl
  | some k =>
    rw [Option.map_some, progressBytes_eq]
    split <;> rfl

theorem headStatusBytes_eq (s : State) (h : Head) : headStatusBytes s h =
    (u8 (s.monitor h).state.code ++ u8 (s.permitOut h).toNat ++ u8 s.estop.toNat ++
      u8 s.board.state.code) ++
    (optField 2 ((s.claimOf h).map claimBytes) ++ (optField 1 ((s.queuePosition h).map u8) ++
    (u8 (s.zonesHeld h).length ++ (((s.zonesHeld h).map fun z => u8 z.val).flatten ++
    (optField 5 ((s.monitor h).copy.map fun w => u8 w.typeNo.val ++ u32 w.fields.partCode.toNat) ++
    (optField 2 ((s.monitor h).grantTime.map fun t => u16 (holdTimeLeft s t)) ++
    (optField 19 ((s.monitor h).stroke.map (progressBytes (s.monitor h).state)) ++
    (optField 1 ((primaryCause (s.monitor h)).map fun c => u8 c.code) ++
      sensingBytes (s.front h))))))))) := by
  simp only [headStatusBytes, listField, flagByte, List.length_map, List.append_assoc]

theorem length_positionField (o : Option Nat) : (optField 1 (o.map u8)).length = 2 := by
  cases o <;> rfl

/-- The places in a head's STATUS, field after field. -/
theorem headStatusLaid (s : State) (h : Head) : HeadStatusLaid s h (headStatusBytes s h) := by
  have whole := headStatusBytes_eq s h
  have claim : (headStatusBytes s h).drop 4 = _ := drop_past (i := 0) whole rfl
  have position := drop_past claim (length_claimField _)
  have count := drop_past position (length_positionField _)
  have zones := drop_past (width := 1) count rfl
  have copy := drop_past zones (length_bytes _ _)
  have hold := drop_past copy (length_copyField _)
  have stroke := drop_past hold (length_wordField _ _)
  have cause := drop_past stroke (length_strokeField _ _)
  have sensing := drop_past cause (length_causeField _)
  have claim_places := claimField_places claim
  simp only [at8_drop] at claim_places
  obtain ⟨unclaimed, claimed⟩ := claim_places
  have unheld : (s.monitor h).claim = none → s.claimOf h = (s.entryOf h).map (·.claim) := fun none => by
    rw [State.claimOf, none]
  have few : (s.zonesHeld h).length ≤ 32 :=
    (List.length_filter_le _ _).trans (List.length_finRange).le
  constructor
  case length =>
    simp only [whole, List.length_append, length_u8, length_bytes, length_claimField,
      length_positionField, length_copyField, length_wordField, length_strokeField, length_causeField,
      length_sensingBytes]
    omega
  case outputs =>
    rw [whole]
    exact ⟨u8_read (HeadState.code_lt _), u8_read (bit_lt _), u8_read (bit_lt _),
      u8_read (BoardState.code_lt _)⟩
  case unclaimed =>
    intro none absent
    exact unclaimed (by rw [unheld none, State.entryOf_of_absent absent]; rfl)
  case claimed =>
    intro c held
    exact claimed c (by rw [State.claimOf, held])
  case unqueued =>
    intro absent
    have none : s.queuePosition h = none := by
      rw [State.queuePosition, State.entryOf_of_absent absent]
      rfl
    have places (k : Nat) := at8_drop (headStatusBytes s h) 7 k
    rw [position, none] at places
    exact ⟨(places 0).symm, (places 1).symm⟩
  case queued =>
    intro i e entry own first
    obtain ⟨found, place⟩ := State.entryOf_of_first entry own first
    have places (k : Nat) := at8_drop (headStatusBytes s h) 7 k
    rw [position, place] at places
    refine ⟨(places 0).symm, (places 1).symm.trans (u8_read_mod _), fun none => ?_⟩
    exact claimed e.claim (by rw [unheld none, found]; rfl)
  case zones =>
    have place := at8_drop (headStatusBytes s h) 9 0
    rw [count] at place
    exact ⟨place.symm.trans (u8_read (by omega)), fun i z entry => at8_bytes zones entry (by omega)⟩
  case copy =>
    have places := copyField_places copy
    simp only [at8_drop, at32_drop] at places
    exact places
  case hold =>
    have places := wordField_places hold
    simp only [at8_drop, at16_drop] at places
    exact places
  case still =>
    exact (strokeField_places stroke).1
  case stroke =>
    have places := (strokeField_places stroke).2
    simp only [at8_drop, at32_drop] at places
    exact places
  case cause =>
    have places := causeField_places cause
    simp only [at8_drop] at places
    exact places
  case sensing =>
    rw [show 41 + (s.zonesHeld h).length = 10 + (s.zonesHeld h).length + 6 + 3 + 20 + 2 by omega]
    exact sensing

/-! ### STATUS on the cell link (R174) -/

/-- The 15 bytes before the heads' parts: the links, the inputs and outputs, the board. -/
def cellHeader (s : State) : List Byte :=
  u8 (s.link (.head .h0)).up.toNat ++ (u8 (s.link (.head .h1)).up.toNat ++
  (u8 (s.link (.head .h2)).up.toNat ++ (u8 (s.link (.head .h3)).up.toNat ++
  (u8 s.cellLink.up.toNat ++ (u8 s.estop.toNat ++ (u8 s.attn.toNat ++ (u8 s.board.state.code ++
  (u32 s.board.serial.toNat ++ (u8 s.board.bypassLimit ++ (u8 s.board.holdTime ++
    u8 s.period.code))))))))))

/-- The three counts that end the reply. -/
def cellCounts (s : State) : List Byte := u8 s.records.length ++ u8 s.reserved ++ u8 s.pendingCount

theorem cellStatusBytes_eq (s : State) : cellStatusBytes s =
    cellHeader s ++ ((allHeads.map (cellHeadBytes s)).flatten ++
    ((s.zones.toList.map fun o => u8 ((o.map headNo).getD 255)).flatten ++
    (u8 s.queue.length ++ ((s.queue.map entryBytes).flatten ++ cellCounts s)))) := by
  have holders : holderByte = fun o => u8 ((o.map headNo).getD 255) := by
    funext o
    cases o <;> rfl
  have header : ((s.headLinks.toList ++ [s.cellLink]).map fun k => flagByte k.up).flatten
      ++ flagByte s.estop ++ flagByte s.attn ++ u8 s.board.state.code ++ boardBytes s = cellHeader s := rfl
  rw [cellStatusBytes, header, holders, listField, cellCounts]
  simp only [List.length_map, List.append_assoc]

theorem length_cellHeadBytes (s : State) (h : Head) : (cellHeadBytes s h).length = 43 := by
  simp only [cellHeadBytes, flagByte, List.length_append, length_u8, length_claimField, length_causeField,
    length_sensingBytes]

theorem length_entryBytes (e : QueueEntry) : (entryBytes e).length = 4 := rfl

theorem length_cellHeads (s : State) : ((allHeads.map (cellHeadBytes s)).flatten).length = 172 := by
  simp [allHeads, length_cellHeadBytes]

theorem length_entries (qs : List QueueEntry) : (qs.map entryBytes).flatten.length = 4 * qs.length := by
  have widths : (List.length ∘ entryBytes) = fun _ => 4 := rfl
  simp [List.length_flatten, widths, mul_comm]

/-- Entries of one length: the entry at place `k` stands after `k` of them. -/
theorem drop_entry {p rest xs : List Byte} {xss : List (List Byte)} {i width k : Nat}
    (place : p.drop i = xss.flatten ++ rest) (lengths : ∀ ys ∈ xss, ys.length = width)
    (entry : xss[k]? = some xs) : ∃ rest', p.drop (i + width * k) = xs ++ rest' := by
  induction xss generalizing i k with
  | nil => cases entry
  | cons ys yss ih =>
    rw [List.forall_mem_cons] at lengths
    obtain ⟨first, others⟩ := lengths
    rw [List.flatten_cons, List.append_assoc] at place
    cases k with
    | zero =>
      obtain rfl : ys = xs := by simpa using entry
      exact ⟨_, place⟩
    | succ k =>
      obtain ⟨rest', place'⟩ := ih (drop_past place first) others (by simpa using entry)
      exact ⟨rest', by rwa [Nat.mul_succ, Nat.add_comm (width * k), ← Nat.add_assoc]⟩

/-- One head's part of the reply, each field read at its place. -/
theorem cellHeadBytes_places {p rest : List Byte} (place : p = cellHeadBytes s h ++ rest) :
    at8 p 0 = (s.monitor h).state.code ∧ at8 p 1 = (s.permitOut h).toNat ∧
    (s.claimOf h = none → at8 p 2 = 0 ∧ at8 p 3 = 0 ∧ at8 p 4 = 0) ∧
    (∀ c, s.claimOf h = some c →
      at8 p 2 = 1 ∧ at8 p 3 = c.site.val ∧ at8 p 4 = c.restrike.toNat) ∧
    ((s.monitor h).state ≠ .halted → at8 p 5 = 0 ∧ at8 p 6 = 0) ∧
    (∀ k a, (s.monitor h).state = .halted → (s.monitor h).stroke = some k → k.abort = some a →
      at8 p 5 = 1 ∧ at8 p 6 = a.primary.code) ∧
    (p.drop 7).take 36 = sensingBytes (s.front h) := by
  have fields : p.drop 0 = (u8 (s.monitor h).state.code ++ u8 (s.permitOut h).toNat) ++
      (optField 2 ((s.claimOf h).map claimBytes) ++
      (optField 1 ((primaryCause (s.monitor h)).map fun c => u8 c.code) ++
      (sensingBytes (s.front h) ++ rest))) := by
    rw [List.drop_zero, place]
    simp only [cellHeadBytes, flagByte, List.append_assoc]
  have claim := drop_past (width := 2) fields rfl
  have cause := drop_past claim (length_claimField _)
  have sensing := drop_past cause (length_causeField _)
  have claim_places := claimField_places claim
  have cause_places := causeField_places cause
  simp only [at8_drop] at claim_places cause_places
  rw [List.drop_zero] at fields
  refine ⟨?_, ?_, claim_places.1, claim_places.2, cause_places.1, cause_places.2, ?_⟩
  · rw [fields]
    exact u8_read (HeadState.code_lt _)
  · rw [fields]
    exact u8_read (bit_lt _)
  · rw [show 7 = 0 + 2 + 3 + 2 from rfl, sensing, List.take_left' (length_sensingBytes _)]

section
variable (s : State)

theorem drop_cellHeads : (cellStatusBytes s).drop 15 = (allHeads.map (cellHeadBytes s)).flatten ++
    ((s.zones.toList.map fun o => u8 ((o.map headNo).getD 255)).flatten ++
    (u8 s.queue.length ++ ((s.queue.map entryBytes).flatten ++ cellCounts s))) :=
  drop_past (i := 0) (cellStatusBytes_eq s) rfl

theorem drop_cellZones : (cellStatusBytes s).drop 187 =
    (s.zones.toList.map fun o => u8 ((o.map headNo).getD 255)).flatten ++
    (u8 s.queue.length ++ ((s.queue.map entryBytes).flatten ++ cellCounts s)) :=
  drop_past (drop_cellHeads s) (length_cellHeads s)

theorem drop_cellQueue : (cellStatusBytes s).drop 219 =
    u8 s.queue.length ++ ((s.queue.map entryBytes).flatten ++ cellCounts s) :=
  drop_past (width := 32) (drop_cellZones s) (by rw [length_bytes, Vector.length_toList])

theorem drop_cellEntries : (cellStatusBytes s).drop 220 =
    (s.queue.map entryBytes).flatten ++ cellCounts s :=
  drop_past (drop_cellQueue s) rfl

theorem drop_cellCounts : (cellStatusBytes s).drop (220 + 4 * s.queue.length) = cellCounts s :=
  drop_past (drop_cellEntries s) (length_entries _)

theorem length_cellStatusBytes : (cellStatusBytes s).length = 223 + 4 * s.queue.length := by
  rw [cellStatusBytes_eq]
  simp only [List.length_append, length_cellHeads, length_bytes, length_entries, length_u8,
    Vector.length_toList]
  have header : (cellHeader s).length = 15 := rfl
  have counts : (cellCounts s).length = 3 := rfl
  omega

/-- The links, the inputs and outputs and the board, each read at its place. -/
theorem cellStatusBytes_header :
    let b := cellStatusBytes s
    (∀ h, at8 b (headNo h) = (s.link (.head h)).up.toNat) ∧ at8 b 4 = s.cellLink.up.toNat ∧
    at8 b 5 = s.estop.toNat ∧ at8 b 6 = s.attn.toNat ∧ at8 b 7 = s.board.state.code ∧
    at32 b 8 = s.board.serial.toNat ∧ at8 b 12 = s.board.bypassLimit % 256 ∧
    at8 b 13 = s.board.holdTime % 256 ∧ at8 b 14 = s.period.code := by
  rw [cellStatusBytes_eq]
  exact ⟨fun h => by cases h <;> exact u8_read (bit_lt _), u8_read (bit_lt _), u8_read (bit_lt _),
    u8_read (bit_lt _), u8_read (BoardState.code_lt _), u32_read s.board.serial.isLt, u8_read_mod _,
    u8_read_mod _, u8_read (Period.code_lt _)⟩

/-- Each head's part, read from its place. -/
theorem cellStatusBytes_head (h : Head) :
    ∃ rest, (cellStatusBytes s).drop (15 + 43 * headNo h) = cellHeadBytes s h ++ rest := by
  refine drop_entry (drop_cellHeads s) ?_ ?_
  · simpa using fun h _ => length_cellHeadBytes s h
  · cases h <;> rfl

/-- Each entry of the claim queue, read from its place. -/
theorem cellStatusBytes_entry {i : Nat} {e : QueueEntry} (entry : s.queue[i]? = some e) :
    let b := cellStatusBytes s
    at8 b (220 + 4 * i) = headNo e.head ∧ at8 b (221 + 4 * i) = e.claim.site.val ∧
    at8 b (222 + 4 * i) = e.claim.restrike.toNat ∧ at8 b (223 + 4 * i) = e.bypass % 256 := by
  obtain ⟨rest, place⟩ := drop_entry (k := i) (xs := entryBytes e) (width := 4) (drop_cellEntries s)
    (by simpa using fun e _ => length_entryBytes e) (by simp [entry])
  have fields (k : Nat) := at8_drop (cellStatusBytes s) (220 + 4 * i) k
  simp only [place, Nat.add_right_comm 220] at fields
  exact ⟨(fields 0).symm.trans (u8_read (headNo_lt _)), (fields 1).symm.trans (u8_read (by omega)),
    (fields 2).symm.trans (u8_read (bit_lt _)), (fields 3).symm.trans (u8_read_mod _)⟩

/-- The holder of each zone, read at its place. -/
theorem cellStatusBytes_zone (z : Fin 32) :
    at8 (cellStatusBytes s) (187 + z.val) = ((s.holder z).map headNo).getD 255 := by
  refine at8_bytes (drop_cellZones s) (x := s.holder z) ?_ ?_
  · simp [State.holder]
  · cases s.holder z with
    | none => exact (by decide : 255 < 256)
    | some h => exact headNo_lt h

/-- The three counts, read after the claim queue. -/
theorem cellStatusBytes_counts :
    let b := cellStatusBytes s
    at8 b (220 + 4 * s.queue.length) = s.records.length % 256 ∧
    at8 b (221 + 4 * s.queue.length) = s.reserved % 256 ∧
    at8 b (222 + 4 * s.queue.length) = s.pendingCount % 256 := by
  have fields (k : Nat) := at8_drop (cellStatusBytes s) (220 + 4 * s.queue.length) k
  simp only [drop_cellCounts, Nat.add_right_comm 220] at fields
  exact ⟨(fields 0).symm.trans (u8_read_mod _), (fields 1).symm.trans (u8_read_mod _),
    (fields 2).symm.trans (u8_read_mod _)⟩

end

/-! ### The requests that report -/

section
variable {tag : Byte}

theorem exec_status (takes : s.takes (.head h) = true) :
    exec (.status h tag []) s = .next (s.withReply (.head h) 2 tag .ok (headStatusBytes s h)) :=
  congrArg Host.Outcome.next (State.request_answer (statusAnswer_stamps h []) takes (Nat.zero_le _) rfl)

theorem exec_status_badLength {payload : List Byte} (takes : s.takes (.head h) = true)
    (some_bytes : payload ≠ []) (short : payload.length ≤ 250) :
    exec (.status h tag payload) s = .next (s.withReply (.head h) 2 tag .badLength []) :=
  congrArg Host.Outcome.next (State.request_turnDown (statusAnswer_stamps h payload) takes short
    (if_pos (mt List.eq_nil_of_length_eq_zero some_bytes)))

theorem exec_cellStatus (takes : s.takes .cell = true) :
    exec (.cellStatus tag []) s = .next (s.withReply .cell 2 tag .ok (cellStatusBytes s)) :=
  congrArg Host.Outcome.next (State.request_answer (cellStatusAnswer_stamps []) takes (Nat.zero_le _) rfl)

theorem exec_cellStatus_badLength {payload : List Byte} (takes : s.takes .cell = true)
    (some_bytes : payload ≠ []) (short : payload.length ≤ 250) :
    exec (.cellStatus tag payload) s = .next (s.withReply .cell 2 tag .badLength []) :=
  next_turnDown (cellStatusAnswer_stamps payload) takes short
    (if_pos (mt List.eq_nil_of_length_eq_zero some_bytes))

/-- READ_SITE of one byte with a board: the answer turns on the number of the site. -/
theorem readSiteAnswer_of_board (n : Byte) (board : s.board.state ≠ .noBoard) : readSiteAnswer [n] s =
    match siteOf n.toNat with
    | none => s.turnDown .badSite
    | some site => s.answer .ok (siteBytes site (s.site site)) :=
  (if_neg (not_not.2 rfl)).trans (if_neg board)

theorem exec_readSite_turnDown {payload : List Byte} {st : Status} (takes : s.takes .cell = true)
    (short : payload.length ≤ 250) (refused : readSiteAnswer payload (s.withReply .cell 39 tag st []) =
      (s.withReply .cell 39 tag st []).turnDown st) :
    exec (.readSite tag payload) s = .next (s.withReply .cell 39 tag st []) :=
  next_turnDown (readSiteAnswer_stamps payload) takes short refused

theorem exec_readSite {n : Byte} {site : Fin 96} (takes : s.takes .cell = true)
    (board : s.board.state ≠ .noBoard) (number : site.val = n.toNat) :
    exec (.readSite tag [n]) s =
      .next (s.withReply .cell 39 tag .ok (siteBytes site (s.site site))) := by
  have known : siteOf n.toNat = some site := by
    rw [← number]
    exact dif_pos site.isLt
  refine congrArg Host.Outcome.next (State.request_answer (readSiteAnswer_stamps [n]) takes
    (by simp) ?_)
  rw [readSiteAnswer_of_board n (by simpa using board), known]
  simp

end

/-- Settles O49: the three requests by their answers; the layouts by the places of their runs of fields. -/
theorem reportsChangeNothing : Obligations.ReportsChangeNothing := by
  refine ⟨fun h tag s takes => ⟨exec_status takes, fun payload => exec_status_badLength takes⟩,
    fun tag s takes => ⟨exec_cellStatus takes, fun payload => exec_cellStatus_badLength takes,
      fun payload wrong short => exec_readSite_turnDown takes short (if_pos wrong), fun no_board n => ?_,
      fun board n far => ?_, fun board n site number => exec_readSite takes board number⟩,
    fun f => ?_, fun s => ?_, headStatusLaid, fun n => rfl, siteLaid, ?_, fun s few => ?_⟩
  · refine exec_readSite_turnDown takes (by simp) ?_
    exact (if_neg (not_not.2 rfl)).trans (if_pos (by simpa using no_board))
  · have unknown : siteOf n.toNat = none := dif_neg (by omega)
    refine exec_readSite_turnDown takes (by simp) ?_
    rw [readSiteAnswer_of_board n (by simpa using board), unknown]
  · obtain ⟨gross, net, position, marks, tilted, tilt⟩ := sensingBytes_latest f
    exact ⟨length_sensingBytes f, gross, net, position, marks, tilted, tilt, sensingBytes_standing f⟩
  · obtain ⟨links, cell, estop, attn, board, serial, limit, hold, period⟩ := cellStatusBytes_header s
    refine ⟨length_cellStatusBytes s, links, cell, estop, attn, board, serial, limit, hold, period,
      fun h => ?_, cellStatusBytes_zone s, ?_, fun i e => cellStatusBytes_entry s,
      cellStatusBytes_counts s⟩
    · obtain ⟨rest, place⟩ := cellStatusBytes_head s h
      have places := cellHeadBytes_places place
      simp only [at8_drop, List.drop_drop] at places
      exact places
    · have count := at8_drop (cellStatusBytes s) 219 0
      rw [drop_cellQueue] at count
      exact count.symm.trans (u8_read_mod _)
  · exact ⟨rfl, rfl, rfl, rfl, rfl, rfl, rfl, rfl, rfl, rfl, fun _ _ _ => rfl⟩
  · rw [length_cellStatusBytes]
    omega

end Sys2Proof.Machine
end
